-- ==== Sys2Proof/Word.lean ====
section
/-! DEFINITION. The three word types of the block (R14: unsigned values u8, u16, u32, bit 0 least significant). -/

namespace Sys2Proof

/-- u8: a byte on the wire, a cell of the frame buffer or of the response buffer. -/
abbrev Byte := BitVec 8

/-- u16: a holding register, a register address, a CRC. -/
abbrev Half := BitVec 16

/-- u32: the millisecond counter and a timestamp (R27, R34). -/
abbrev Time := BitVec 32

end Sys2Proof
end

