-- ==== Sys2Proof/Config.lean ====
section
/-! DEFINITION. The parameters of a build (R11) and the block's constants; the one free value. -/

namespace Sys2Proof

/-- `SIMUL_ORDER` (R11, R134, D10): which of a byte arrival and a tick in the same instant comes first. -/
inductive SimulOrder where
  | byteFirst
  | tickFirst
  /-- "left free": the order is the free value `Config.freeByteFirst` -/
  | free
  deriving DecidableEq, Repr

/-- The rows of R11 marked OPEN: the arguments of the model, constant along every run. The three periods are held
because R11 makes them arguments; no rule reads them ("not used by any rule", log 10). -/
structure Config where
  /-- `N` (`REG_COUNT`): the number of holding registers -/
  regCount : Nat
  /-- `SLAVE_ADDR`: the configuration input, sampled at reset -/
  slaveAddr : Byte
  /-- `HOOK_PRESENT`: a write-notification hook is attached -/
  hookPresent : Bool
  /-- `T_TC_TIMEOUT`: a duration in microseconds, or `none` for the unbounded wait (D16) -/
  tcTimeout : Option Nat
  /-- `T_TICK`, in microseconds -/
  tTick : Nat
  /-- `T_POLL`, in microseconds -/
  tPoll : Nat
  /-- `T_GUARD`, in microseconds -/
  tGuard : Nat
  /-- `SIMUL_ORDER` -/
  simulOrder : SimulOrder
  deriving DecidableEq, Repr

/-- The legal builds: 1 <= N <= 65536 (R11, U5), SLAVE_ADDR in 1..247 (R33, U6), a timeout that is positive or
`none` (R11). -/
def Config.legal (c : Config) : Bool :=
  decide (1 ≤ c.regCount) && decide (c.regCount ≤ 65536)
    && decide (1 ≤ c.slaveAddr.toNat) && decide (c.slaveAddr.toNat ≤ 247)
    && (match c.tcTimeout with
        | none => true
        | some d => decide (0 < d))

/-- The build of `State.reset`: the conventions of `95_test_vectors.md` (N = 16, slave address 3, hook present, no
timeout). DESIGN CHOICE, log 1: unsafe for a claim about `State.reset` alone; every other claim holds for all builds. -/
def Config.standard : Config where
  regCount := 16
  slaveAddr := 0x03#8
  hookPresent := true
  tcTimeout := none
  tTick := 1000
  tPoll := 1000
  tGuard := 50
  simulOrder := .free

/-- Free value (log 6): whether the n-th byte-and-tick pair of a build with `SIMUL_ORDER` left free takes the byte
first. -/
opaque Config.freeByteFirst : Nat → Bool

/-- `BUF_CAP` (R25, D3). -/
@[simp] def Config.bufCap : Nat := 256

/-- `RESP_CAP` (R31, D4). -/
@[simp] def Config.respCap : Nat := 256

/-- `T_SILENCE`: 5 ms (R131). -/
@[simp] def Config.tSilence : Time := 5#32

/-- `MAX_QTY` (R172). -/
@[simp] def Config.maxQty : Nat := 125

/-- `BROADCAST` (R89). -/
@[simp] def Config.broadcast : Byte := 0x00#8

/-- `MIN_FRAME` (R147). -/
@[simp] def Config.minFrame : Nat := 4

/-- The shortest frame that holds the four payload bytes of 0x03 and 0x06 (R95, R150, D12). -/
@[simp] def Config.minRegisterFrame : Nat := 8

end Sys2Proof
end

