-- ==== Sys2Proof/Machine/Bytes.lean ====
section
/-! DEFINITION. Byte order on the wire: registers and fields big-endian (R53), the CRC trailer little-endian (R54). -/

namespace Sys2Proof.Machine

/-- `v[15:8]`. -/
def hi8 (v : Half) : Byte := v.extractLsb' 8 8

/-- `v[7:0]`. -/
def lo8 (v : Half) : Byte := v.extractLsb' 0 8

/-- `MemRead(off, 2)` on its two bytes, the first the high one (R15, R87). -/
def bigEndian (first second : Byte) : Half := first ++ second

/-- The received CRC `buf[len-2] + 256 * buf[len-1]` (R54, R87). -/
def littleEndian (first second : Byte) : Half := second ++ first

/-- `MemWrite(off, 2, v)`: most significant byte first (R15, R53). -/
def beBytes (v : Half) : List Byte := [hi8 v, lo8 v]

/-- The two trailer bytes of a CRC: "low byte first, high byte second" (R54, R114). -/
def leBytes (v : Half) : List Byte := [lo8 v, hi8 v]

end Sys2Proof.Machine
end

