-- ==== Sys2Proof/Machine/Crc.lean ====
section
/-! DEFINITION. The CRC Engine (R110 to R116): a pure function, its bit-wise definition and the table-driven form. -/

namespace Sys2Proof.Machine

/-- One of the eight inner iterations of R111. -/
def crcBit (c : Half) : Half := if c.getLsbD 0 then (c >>> 1) ^^^ 0xA001#16 else c >>> 1

/-- `n` inner iterations. -/
def crcBits : Nat → Half → Half
  | 0, c => c
  | n + 1, c => crcBits n (crcBit c)

/-- One byte: it enters the low byte, then eight iterations (R111). -/
def crcByte (c : Half) (b : Byte) : Half := crcBits 8 (c ^^^ b.setWidth 16)

/-- The register after the bytes `bs`, from the value `c`. -/
def crcFrom (c : Half) (bs : List Byte) : Half := bs.foldl crcByte c

/-- `crc16(s)`, the definition of R111: initial value 0xFFFF, no final inversion. -/
def crc16 (bs : List Byte) : Half := crcFrom 0xFFFF#16 bs

/-- `T[i]` of R112: the eight iterations run on the byte `i`. -/
def crcTableEntry (i : Byte) : Half := crcBits 8 (i.setWidth 16)

/-- One byte of the table-driven form (R112). -/
def crcTableByte (c : Half) (b : Byte) : Half :=
  (c >>> 8) ^^^ crcTableEntry (lo8 (c ^^^ b.setWidth 16))

/-- The table-driven form of R112. R111 stays the definition; nothing else of the model uses this one. -/
def crc16Table (bs : List Byte) : Half := bs.foldl crcTableByte 0xFFFF#16

/-- The trailer of a frame whose other bytes are `bs` (R114). -/
def trailer (bs : List Byte) : List Byte := leBytes (crc16 bs)

/-- Gate 3's comparison (R115, R149): `crc16(f[0..len-3]) = f[len-2] + 256 * f[len-1]`. -/
def trailerMatches (frame : List Byte) : Bool :=
  crc16 (frame.take (frame.length - 2))
    == littleEndian (frame.getD (frame.length - 2) 0) (frame.getD (frame.length - 1) 0)

end Sys2Proof.Machine
end

