-- ==== Sys2Proof/Syntax.lean ====
section
/-! DEFINITION. The instructions: one request frame each (R3), one constructor per row of `spec/opcode_table.json`. -/

namespace Sys2Proof

/-- A request frame without its CRC trailer (R80 to R83). `addr` is byte 0. `extra` is bytes 6 to `len - 3` of a
0x03 or 0x06 frame, which the handlers ignore (R94); `payload` is everything between the function byte and the trailer
of an unsupported request, ignored as well (R152). The eight `illfn` constructors are the eight rows of the table with
the mnemonic ILLFN, each with the function byte's free bits as its operand `f` (log 12): between them and 0x03, 0x06
every function byte has exactly one constructor (R90). -/
inductive Instr where
  /-- RHR, function 0x03, Read Holding Registers (R82, R170) -/
  | rhr (addr : Byte) (start qty : Half) (extra : List Byte)
  /-- WSR, function 0x06, Write Single Register (R83, R180) -/
  | wsr (addr : Byte) (reg value : Half) (extra : List Byte)
  /-- ILLFN, cube 1: function bytes 0x80..0xFF, `1fffffff` -/
  | illfn80 (addr : Byte) (f : BitVec 7) (payload : List Byte)
  /-- ILLFN, cube 2: function bytes 0x40..0x7F, `01ffffff` -/
  | illfn40 (addr : Byte) (f : BitVec 6) (payload : List Byte)
  /-- ILLFN, cube 3: function bytes 0x20..0x3F, `001fffff` -/
  | illfn20 (addr : Byte) (f : BitVec 5) (payload : List Byte)
  /-- ILLFN, cube 4: function bytes 0x10..0x1F, `0001ffff` -/
  | illfn10 (addr : Byte) (f : BitVec 4) (payload : List Byte)
  /-- ILLFN, cube 5: function bytes 0x08..0x0F, `00001fff` -/
  | illfn08 (addr : Byte) (f : BitVec 3) (payload : List Byte)
  /-- ILLFN, cube 6: function bytes 0x00, 0x01, 0x04, 0x05, `00000f0f` -/
  | illfn00 (addr : Byte) (f : BitVec 2) (payload : List Byte)
  /-- ILLFN, cube 7: function byte 0x02 -/
  | illfn02 (addr : Byte) (payload : List Byte)
  /-- ILLFN, cube 8: function byte 0x07 -/
  | illfn07 (addr : Byte) (payload : List Byte)
  deriving DecidableEq, Repr

/-- One match/mask row of `spec/opcode_table.json`, on the function byte (R90: the mask never covers the address byte). -/
structure OpcodeRow where
  pattern : Byte
  mask : Byte
  deriving DecidableEq, Repr

end Sys2Proof
end

