-- ==== Sys2Proof/WellFormed.lean ====
section
/-! DEFINITION. Which instructions are frames the block can hold: at most BUF_CAP = 256 bytes with the trailer (R96). -/

namespace Sys2Proof

/-- The frame of a register request (six bytes, the ignored ones, the trailer) fits the frame buffer. -/
def registerFrameFits (extra : List Byte) : Bool := decide (extra.length + 8 ≤ Config.bufCap)

/-- The frame of an unsupported request (two bytes, its payload, the trailer) fits the frame buffer. -/
def unsupportedFrameFits (payload : List Byte) : Bool := decide (payload.length + 4 ≤ Config.bufCap)

/-- The instruction's frame fits the 256-byte frame buffer; its other fields admit every value (R87, R89, R90). -/
def WellFormed : Instr → Bool
  | .rhr _ _ _ extra => registerFrameFits extra
  | .wsr _ _ _ extra => registerFrameFits extra
  | .illfn80 _ _ payload => unsupportedFrameFits payload
  | .illfn40 _ _ payload => unsupportedFrameFits payload
  | .illfn20 _ _ payload => unsupportedFrameFits payload
  | .illfn10 _ _ payload => unsupportedFrameFits payload
  | .illfn08 _ _ payload => unsupportedFrameFits payload
  | .illfn00 _ _ payload => unsupportedFrameFits payload
  | .illfn02 _ payload => unsupportedFrameFits payload
  | .illfn07 _ payload => unsupportedFrameFits payload

end Sys2Proof
end

