-- ==== Sys2Proof/Decode.lean ====
section
/-! DEFINITION. From the bytes of a frame to an instruction (R80 to R97), the table of function-code rows, and the encoder. -/

namespace Sys2Proof

open Sys2Proof.Machine

/-- Why a frame is no instruction. -/
inductive DecodeError where
  /-- fewer than 4 bytes: no function byte and trailer (R147) -/
  | tooShort
  /-- more than 256 bytes: the frame buffer cannot hold it (R96) -/
  | tooLong
  /-- function 0x03 or 0x06 without its four payload bytes (R95, D12) -/
  | missingPayload
  deriving DecidableEq, Repr

/-- The row of the table that each constructor stands for. -/
def rowOf : Instr → OpcodeRow
  | .rhr _ _ _ _ => ⟨0x03#8, 0xFF#8⟩
  | .wsr _ _ _ _ => ⟨0x06#8, 0xFF#8⟩
  | .illfn80 _ _ _ => ⟨0x80#8, 0x80#8⟩
  | .illfn40 _ _ _ => ⟨0x40#8, 0xC0#8⟩
  | .illfn20 _ _ _ => ⟨0x20#8, 0xE0#8⟩
  | .illfn10 _ _ _ => ⟨0x10#8, 0xF0#8⟩
  | .illfn08 _ _ _ => ⟨0x08#8, 0xF8#8⟩
  | .illfn00 _ _ _ => ⟨0x00#8, 0xFA#8⟩
  | .illfn02 _ _ => ⟨0x02#8, 0xFF#8⟩
  | .illfn07 _ _ => ⟨0x07#8, 0xFF#8⟩

/-- The ten rows of `spec/opcode_table.json` in its order, on the function byte. -/
def opcodeRows : List OpcodeRow :=
  [⟨0x03#8, 0xFF#8⟩, ⟨0x06#8, 0xFF#8⟩, ⟨0x80#8, 0x80#8⟩, ⟨0x40#8, 0xC0#8⟩, ⟨0x20#8, 0xE0#8⟩,
   ⟨0x10#8, 0xF0#8⟩, ⟨0x08#8, 0xF8#8⟩, ⟨0x00#8, 0xFA#8⟩, ⟨0x02#8, 0xFF#8⟩, ⟨0x07#8, 0xFF#8⟩]

/-- A row selects a function byte (R90). -/
def rowSelects (r : OpcodeRow) (fc : Byte) : Bool := fc &&& r.mask == r.pattern

/-- The instruction of an unsupported function byte: the cube that holds it, by its leading bits (R90). Called only
for bytes other than 0x03 and 0x06. -/
def decodeUnsupported (addr fc : Byte) (payload : List Byte) : Instr :=
  if fc.getLsbD 7 then .illfn80 addr (fc.extractLsb' 0 7) payload
  else if fc.getLsbD 6 then .illfn40 addr (fc.extractLsb' 0 6) payload
  else if fc.getLsbD 5 then .illfn20 addr (fc.extractLsb' 0 5) payload
  else if fc.getLsbD 4 then .illfn10 addr (fc.extractLsb' 0 4) payload
  else if fc.getLsbD 3 then .illfn08 addr (fc.extractLsb' 0 3) payload
  else if !fc.getLsbD 1 then .illfn00 addr (fc.extractLsb' 2 1 ++ fc.extractLsb' 0 1) payload
  else if !fc.getLsbD 2 then .illfn02 addr payload
  else .illfn07 addr payload

/-- Gate 4 (R150): the function byte alone selects the handler; 0x03 and 0x06 take their fields from frame offsets
2 to 5 and need all four bytes (R87, R94, R95). `payload` is what stands between the function byte and the trailer. -/
def decodeBody (addr fc : Byte) (payload : List Byte) : Except DecodeError Instr :=
  if fc = 0x03#8 then
    match payload with
    | b2 :: b3 :: b4 :: b5 :: extra => .ok (.rhr addr (bigEndian b2 b3) (bigEndian b4 b5) extra)
    | _ => .error .missingPayload
  else if fc = 0x06#8 then
    match payload with
    | b2 :: b3 :: b4 :: b5 :: extra => .ok (.wsr addr (bigEndian b2 b3) (bigEndian b4 b5) extra)
    | _ => .error .missingPayload
  else .ok (decodeUnsupported addr fc payload)

/-- The decoder, total on any bytes. The trailer's two bytes are taken off, not tested: whether they match is gate 3,
which stands before this one (R149, log 12). -/
def decode (frame : List Byte) : Except DecodeError Instr :=
  if frame.length < Config.minFrame then .error .tooShort
  else if Config.bufCap < frame.length then .error .tooLong
  else
    match frame with
    | addr :: fc :: rest => decodeBody addr fc (rest.take (rest.length - 2))
    | _ => .error .tooShort

/-- Byte 0 of the instruction's frame. -/
def addressByte : Instr → Byte
  | .rhr addr _ _ _ => addr
  | .wsr addr _ _ _ => addr
  | .illfn80 addr _ _ => addr
  | .illfn40 addr _ _ => addr
  | .illfn20 addr _ _ => addr
  | .illfn10 addr _ _ => addr
  | .illfn08 addr _ _ => addr
  | .illfn00 addr _ _ => addr
  | .illfn02 addr _ => addr
  | .illfn07 addr _ => addr

/-- Byte 1 of the instruction's frame, from the row's encoding in `spec/opcode_table.json`. -/
def functionByte : Instr → Byte
  | .rhr _ _ _ _ => 0x03#8
  | .wsr _ _ _ _ => 0x06#8
  | .illfn80 _ f _ => 1#1 ++ f
  | .illfn40 _ f _ => 1#2 ++ f
  | .illfn20 _ f _ => 1#3 ++ f
  | .illfn10 _ f _ => 1#4 ++ f
  | .illfn08 _ f _ => 1#5 ++ f
  | .illfn00 _ f _ => 0#5 ++ f.extractLsb' 1 1 ++ 0#1 ++ f.extractLsb' 0 1
  | .illfn02 _ _ => 0x02#8
  | .illfn07 _ _ => 0x07#8

/-- The bytes between the function byte and the trailer (R82, R83). -/
def payloadBytes : Instr → List Byte
  | .rhr _ start qty extra => beBytes start ++ beBytes qty ++ extra
  | .wsr _ reg value extra => beBytes reg ++ beBytes value ++ extra
  | .illfn80 _ _ payload => payload
  | .illfn40 _ _ payload => payload
  | .illfn20 _ _ payload => payload
  | .illfn10 _ _ payload => payload
  | .illfn08 _ _ payload => payload
  | .illfn00 _ _ payload => payload
  | .illfn02 _ payload => payload
  | .illfn07 _ payload => payload

/-- Every byte of the frame but the trailer: what the CRC covers (R97). -/
def encodeBody (i : Instr) : List Byte := addressByte i :: functionByte i :: payloadBytes i

/-- The instruction's frame: its bytes, then its CRC low byte first (R80, R114). -/
def encode (i : Instr) : List Byte := encodeBody i ++ trailer (encodeBody i)

/-- The two bytes, in wire order, of the table's `k`-th 16-bit word `256*buf[2k] + buf[2k+1]`, bits of `w` from
`16 k` on. -/
def tableWordBytes (w k : Nat) : List Byte := beBytes (BitVec.ofNat 16 (w >>> (16 * k)))

/-- The frame a table word stands for: three words (address and function byte, then two operand words), every bit from
`nbits` on zero, and the CRC those six bytes call for (log 11: the trailer is no operand but a function of the bytes
before it, R114). -/
def tableFrame (nbits w : Nat) : List Byte :=
  let v := w % 2 ^ nbits
  let body := tableWordBytes v 0 ++ tableWordBytes v 1 ++ tableWordBytes v 2
  body ++ trailer body

/-- The instruction the decoder reads from a row's word, numbered as `spec/opcode_table.json` numbers its bits. -/
def decodeTableWord (nbits w : Nat) : Option Instr :=
  match decode (tableFrame nbits w) with
  | .ok i => some i
  | .error _ => none

end Sys2Proof
end

