-- ==== Sys2Proof/Machine/Memory.lean ====
section
/-! DEFINITION. A storage space (R50) as plain data: (address, cell) pairs, addresses strictly rising, no pair equal to what
an unlisted cell reads as. The register space has 16-bit cells, the two buffers 8-bit cells (`Host.Cell`). -/

namespace Sys2Proof.Machine

/-- A space with cells of `w` bits. -/
abbrev Memory (w : Nat) := List (Nat × BitVec w)

/-- What an unlisted cell reads as: 0. For the registers it is their reset value (R49); for the two buffers, whose
reset contents the spec leaves unspecified and no rule reads, it is a DESIGN CHOICE (log 5, unsafe). -/
def Memory.blank (w : Nat) : BitVec w := 0#w

/-- The cell at address `a`. -/
def Memory.read {w : Nat} : Memory w → Nat → BitVec w
  | [], _ => Memory.blank w
  | (b, v) :: m, a => if a = b then v else Memory.read m a

/-- Put an entry before `m`, unless it is what an unlisted cell reads as. -/
def Memory.consCell {w : Nat} (a : Nat) (v : BitVec w) (m : Memory w) : Memory w :=
  if v = Memory.blank w then m else (a, v) :: m

/-- The space with `v` at address `a`; the canonical form is kept. -/
def Memory.write {w : Nat} : Memory w → Nat → BitVec w → Memory w
  | [], a, v => Memory.consCell a v []
  | (b, u) :: m, a, v =>
    if a < b then Memory.consCell a v ((b, u) :: m)
    else if a = b then Memory.consCell a v m
    else (b, u) :: Memory.write m a v

/-- `vs` written to the cells from `a` on, in ascending order. -/
def Memory.writeList {w : Nat} (m : Memory w) (a : Nat) : List (BitVec w) → Memory w
  | [] => m
  | v :: vs => Memory.writeList (m.write a v) (a + 1) vs

/-- The `n` cells from `a` on, in ascending order. -/
def Memory.readList {w : Nat} (m : Memory w) (a : Nat) : Nat → List (BitVec w)
  | 0 => []
  | n + 1 => m.read a :: Memory.readList m (a + 1) n

/-- The canonical form from address `lo` on. -/
def Memory.wfFrom {w : Nat} (lo : Nat) : Memory w → Bool
  | [] => true
  | (a, v) :: m => decide (lo ≤ a) && decide (v ≠ Memory.blank w) && Memory.wfFrom (a + 1) m

/-- The canonical form: addresses strictly rising, no entry that an unlisted cell reads as. -/
def Memory.wf {w : Nat} (m : Memory w) : Bool := Memory.wfFrom 0 m

/-- Every listed address is below `n`, the number of cells of the space. -/
def Memory.below {w : Nat} (n : Nat) (m : Memory w) : Bool := m.all fun c => decide (c.1 < n)

end Sys2Proof.Machine
end

