-- ==== Sys2Proof/Machine/State.lean ====
section
/-! DEFINITION. The state of the block (R20 to R39), its inputs and outputs (R40 to R48), and the state after reset (R49). -/

namespace Sys2Proof.Machine

/-- `phase` (R36): where the main loop stands inside one frame consumption. -/
inductive Phase where
  /-- P_IDLE -/
  | idle
  /-- P_GUARD_PRE -/
  | guardPre
  /-- P_SEND -/
  | send
  /-- P_WAIT_TC -/
  | waitTc
  /-- P_GUARD_POST -/
  | guardPost
  /-- P_DONE -/
  | done
  deriving DecidableEq, Repr

/-- An event of the output trace (R47). -/
inductive Output where
  /-- DE(1) for `true`, DE(0) for `false` -/
  | de (level : Bool)
  | tx (b : Byte)
  | hook (a v : Half)
  deriving DecidableEq, Repr

/-- A reply of the collaborator port (R24). -/
inductive Reply where
  | value (v : Half)
  | ok
  | outOfRange
  deriving DecidableEq, Repr

/-- A collaborator's access to the Register Store (R24). -/
inductive Access where
  /-- `CollabRead(a)` -/
  | read (a : Nat)
  /-- `CollabWrite(a, v)` -/
  | write (a : Nat) (v : Half)
  deriving DecidableEq, Repr

/-- One step of one agent (R48). A list of them is a schedule of the block, a program in the sense of R3 and R99.
`rxByteWithTick` is a byte arrival and a tick in the same instant (R134): it puts the two steps in the order that
SIMUL_ORDER gives. -/
inductive Event where
  | rxByte (b : Byte)
  | advance
  | tick
  | rxByteWithTick (b : Byte)
  | poll
  | guardPre
  | sendByte
  | sendDone
  | tc
  | tcTimeout
  | guardPost
  | clear
  /-- `a` is an integer of at least 16 bits (R24, log 15) -/
  | collabRead (a : Nat)
  | collabWrite (a : Nat) (v : Half)
  | reset
  deriving DecidableEq, Repr

/-- The state of the block. The fields from `x` to `txFault` are the elements of R20's table; `cfg` holds the build's
parameters (R11); the last five are the model's own (logs 2, 6, 7, 17). -/
structure State where
  /-- the build's parameters; no step changes them -/
  cfg : Config
  /-- Register Store (R21) -/
  x : Memory 16
  /-- Frame Buffer (R25) -/
  buf : Memory 8
  /-- R26 -/
  rxIndex : Nat
  /-- R27 -/
  lastRxTime : Time
  /-- R28 -/
  frameReady : Bool
  /-- Response Buffer (R31) -/
  resp : Memory 8
  /-- R31 -/
  respLen : Nat
  /-- R32 -/
  txIdx : Nat
  /-- R33 -/
  slaveAddr : Byte
  /-- R34 -/
  now : Time
  /-- R35: `true` is transmit -/
  de : Bool
  /-- R36 -/
  phase : Phase
  /-- R37 -/
  txFault : Bool
  /-- the schedule: the steps still to come, the next one first -/
  events : List Event
  /-- the collaborator accesses delayed until P_IDLE, the oldest first (R272) -/
  delayed : List Access
  /-- the output trace, the oldest event first (R47) -/
  trace : List Output
  /-- the collaborator port's latest reply (R24) -/
  reply : Option Reply
  /-- how many byte-and-tick pairs have been ordered -/
  orderCount : Nat
  deriving DecidableEq, Repr

/-- The faults: accesses to cells that the two buffers do not have (R50: offsets 0..255). The block reports no fault
(R159), no reachable state raises one, and a run that stops here proves nothing false: both are safe (log 9). -/
inductive Fault where
  /-- raised by the process step when `rx_index > 256`; safe -/
  | frameBufferBounds
  /-- raised by the send-byte step when `tx_idx > 255`; safe -/
  | responseBufferBounds
  deriving DecidableEq, Repr

/-- The refusals. -/
inductive Refusal where
  /-- raised by no arm: every instruction has its meaning; safe -/
  | notModelled (mnemonic : String)
  /-- raised by every step of a build the spec says a model refuses: N outside 1..65536, SLAVE_ADDR outside 1..247, a
  zero timeout (U5, U6, R33, log 8); safe -/
  | illegalBuild
  deriving DecidableEq, Repr

/-- The outcomes of a step of this machine. -/
abbrev Outcome := Host.Outcome State Fault Refusal

/-- The state after reset of a build (R49, R260). -/
def State.resetFor (cfg : Config) : State where
  cfg := cfg
  x := []
  buf := []
  rxIndex := 0
  lastRxTime := 0#32
  frameReady := false
  resp := []
  respLen := 0
  txIdx := 0
  slaveAddr := cfg.slaveAddr
  now := 0#32
  de := false
  phase := .idle
  txFault := false
  events := []
  delayed := []
  trace := []
  reply := none
  orderCount := 0

/-- The machine right after reset, in the build of the test vectors (log 1). -/
def State.reset : State := State.resetFor Config.standard

end Sys2Proof.Machine
end

