-- ==== Sys2Proof/Machine/Operands.lean ====
section
/-! DEFINITION. Operands: the frame in the buffer, the registers a request names, and the handlers' validations, all in exact
arithmetic (R190). -/

namespace Sys2Proof.Machine

/-- The frame: `buf[0 .. rx_index-1]` (R18, R146). -/
def frameBytes (s : State) : List Byte := s.buf.readList 0 s.rxIndex

/-- The response: `resp[0 .. resp_len-1]` (R31). -/
def respBytes (s : State) : List Byte := s.resp.readList 0 s.respLen

/-- `1 <= q <= 125` (R172). -/
def quantityLegal (q : Half) : Bool := decide (q ≠ 0#16) && decide (q.toNat ≤ Config.maxQty)

/-- `s + q <= N`, the sum an integer that does not wrap (R173, R174). -/
def rangeLegal (cfg : Config) (start q : Half) : Bool := decide (start.toNat + q.toNat ≤ cfg.regCount)

/-- `a < N` (R51, R183 and the collaborator port's R24). -/
def addressLegal (cfg : Config) (a : Nat) : Bool := decide (a < cfg.regCount)

/-- The values of the registers `start .. start + q - 1`, each read in ascending order (R57, R175). -/
def registerValues (s : State) (start q : Half) : List Half := s.x.readList start.toNat q.toNat

/-- `x[r] <- v` (R184). -/
def writeRegister (r : Nat) (v : Half) (s : State) : State := { s with x := s.x.write r v }

end Sys2Proof.Machine
end

