-- ==== Sys2Proof/Machine/Collaborator.lean ====
section
/-! DEFINITION. The collaborator port (R24), enabled only while `phase = P_IDLE` (R58, D15). In any other phase the access is
delayed, not lost (R272): its agent waits until the main loop runs again (log 17). -/

namespace Sys2Proof.Machine

/-- The step an access is when it is carried out (R48). -/
def Access.event : Access → Event
  | .read a => .collabRead a
  | .write a v => .collabWrite a v

/-- The access waits behind those that wait already (R272). -/
def delayAccess (access : Access) (s : State) : State := { s with delayed := s.delayed ++ [access] }

/-- The main loop runs again: the delayed accesses are the next steps, the oldest first (R272). -/
def releaseDelayed (s : State) : State := { s with events := s.delayed.map Access.event ++ s.events, delayed := [] }

/-- `CollabRead(a)`. -/
def collabRead (a : Nat) (s : State) : State :=
  if s.phase = .idle then
    { s with reply := some (if addressLegal s.cfg a then .value (s.x.read a) else .outOfRange) }
  else delayAccess (.read a) s

/-- `CollabWrite(a, v)`: no hook event (R186, D14). -/
def collabWrite (a : Nat) (v : Half) (s : State) : State :=
  if s.phase = .idle then
    if addressLegal s.cfg a then { writeRegister a v s with reply := some .ok }
    else { s with reply := some .outOfRange }
  else delayAccess (.write a v) s

end Sys2Proof.Machine
end

