-- ==== Sys2Proof/Machine/Flags.lean ====
section
/-! DEFINITION. The block's three flags (R39): the silence test that sets `frame_ready`, the direction line `de`, the sticky
`tx_fault`; and the output trace that a change of `de` is recorded in. -/

namespace Sys2Proof.Machine

/-- `emit E` (R15, R47): the event is appended to the output trace. -/
def emit (e : Output) (s : State) : State := { s with trace := s.trace ++ [e] }

/-- `set_transmit(level)` (R200): the direction line and the event that records its change. -/
def setTransmit (level : Bool) (s : State) : State := { emit (.de level) s with de := level }

/-- The elapsed time of R130: `(now - last_rx_time) mod 2^32`. -/
def elapsed (s : State) : Time := s.now - s.lastRxTime

/-- R130: the silence threshold is reached. -/
def silenceReached (s : State) : Bool := decide (Config.tSilence ≤ elapsed s)

/-- R207: the reported failure of the transmission-complete wait. -/
def raiseTxFault (s : State) : State := { s with txFault := true }

end Sys2Proof.Machine
end

