-- ==== Sys2Proof/Machine/Ops.lean ====
section
/-! DEFINITION. The operations the handlers share: building a response, taking an exception (R228) and returning from one
(R237), dropping a frame, ending the process step, and putting a frame where the process step fetches it. -/

namespace Sys2Proof.Machine

/-- The exception codes (R225). -/
inductive ExceptionCode where
  | illegalFunction
  | illegalAddress
  | illegalValue
  /-- 0x04, "defined but unused": no rule raises it (R230) -/
  | slaveFailure
  deriving DecidableEq, Repr

/-- The code byte of an exception (R225). -/
def exceptionByte : ExceptionCode → Byte
  | .illegalFunction => 0x01#8
  | .illegalAddress => 0x02#8
  | .illegalValue => 0x03#8
  | .slaveFailure => 0x04#8

/-- Store a response: its bytes from `resp[0]` on, then the CRC of them (R114, R175, R185, R228). -/
def loadResponse (body : List Byte) (s : State) : State :=
  let bytes := body ++ trailer body
  { s with resp := s.resp.writeList 0 bytes, respLen := bytes.length }

/-- TAKING AN EXCEPTION: `raise <Exception>(fc)`, `build_exc` (R228). Nothing is saved and no control is transferred
(R236): slave address, function byte with bit 7 set, code, CRC. -/
def raiseException (fc : Byte) (code : ExceptionCode) (s : State) : State :=
  loadResponse [s.slaveAddr, fc ||| 0x80#8, exceptionByte code] s

/-- RETURNING: the effect of `Clear` (R156, R237), the same for every frame. -/
def clear (s : State) : State := { s with rxIndex := 0, frameReady := false, phase := .idle }

/-- `build_rhr(s, q)` (R175). -/
def buildReadResponse (start q : Half) (s : State) : State :=
  loadResponse (s.slaveAddr :: 0x03#8 :: lo8 (2#16 * q) :: (registerValues s start q).flatMap beBytes) s

/-- `build_wsr(r, v)` (R185). -/
def buildWriteResponse (r v : Half) (s : State) : State :=
  loadResponse ([s.slaveAddr, 0x06#8] ++ beBytes r ++ beBytes v) s

/-- The write-notification hook (R186). -/
def notifyHook (r v : Half) (s : State) : State := if s.cfg.hookPresent then emit (.hook r v) s else s

/-- `resp_len <- 0`: no response. -/
def noResponse (s : State) : State := { s with respLen := 0 }

/-- Broadcast suppression (R154). -/
def suppressBroadcast (addr : Byte) (s : State) : State :=
  if addr = Config.broadcast then noResponse s else s

/-- The end of the process step (R155). -/
def endProcess (s : State) : State :=
  if s.respLen = 0 then { s with phase := .done } else { s with txIdx := 0, phase := .guardPre }

/-- What follows every handler: broadcast suppression, then the end of the process step (R154, R155). -/
def finishProcess (addr : Byte) (s : State) : State := endProcess (suppressBroadcast addr s)

/-- `drop` and the end of the process step (R153). -/
def dropFrame (s : State) : State := endProcess (noResponse s)

/-- The state with `frame` received and ready, addressed to this slave, and the poll that consumes it next: what a
run of byte, time and tick events leaves (log 11). -/
def placeFrame (frame : List Byte) (s : State) : State :=
  let addr := frame.getD 0 0
  { s with
    buf := s.buf.writeList 0 frame
    rxIndex := frame.length
    frameReady := true
    phase := .idle
    slaveAddr := if addr = Config.broadcast then s.slaveAddr else addr
    events := .poll :: s.events }

end Sys2Proof.Machine
end

