-- ==== Sys2Proof/Machine/ReadHolding.lean ====
section
/-! DEFINITION. Function 0x03, Read Holding Registers (R170 to R178). -/

namespace Sys2Proof.Machine

/-- The handler: the quantity is tested before the range (R172, R174), then the response is built (R175). -/
def handleRead (start qty : Half) (s : State) : State :=
  if quantityLegal qty then
    if rangeLegal s.cfg start qty then buildReadResponse start qty s
    else raiseException 0x03#8 .illegalAddress s
  else raiseException 0x03#8 .illegalValue s

/-- RHR (R170). The bytes `extra` are ignored (R94). -/
def execRhr (addr : Byte) (start qty : Half) (_extra : List Byte) (s : State) : Outcome :=
  .next (finishProcess addr (handleRead start qty s))

end Sys2Proof.Machine
end

