-- ==== Sys2Proof/Machine/Unsupported.lean ====
section
/-! DEFINITION. Unsupported function codes (R152): one meaning per row of the table, each over the one shared operation. -/

namespace Sys2Proof.Machine

/-- R152: the exception ILLEGAL_FUNCTION for the request's function byte, removed again on broadcast (R154). -/
def rejectFunction (addr fc : Byte) (s : State) : State :=
  finishProcess addr (raiseException fc .illegalFunction s)

/-- ILLFN, function bytes 0x80..0xFF. -/
def execIllfn80 (addr : Byte) (f : BitVec 7) (payload : List Byte) (s : State) : Outcome :=
  .next (rejectFunction addr (functionByte (.illfn80 addr f payload)) s)

/-- ILLFN, function bytes 0x40..0x7F. -/
def execIllfn40 (addr : Byte) (f : BitVec 6) (payload : List Byte) (s : State) : Outcome :=
  .next (rejectFunction addr (functionByte (.illfn40 addr f payload)) s)

/-- ILLFN, function bytes 0x20..0x3F. -/
def execIllfn20 (addr : Byte) (f : BitVec 5) (payload : List Byte) (s : State) : Outcome :=
  .next (rejectFunction addr (functionByte (.illfn20 addr f payload)) s)

/-- ILLFN, function bytes 0x10..0x1F. -/
def execIllfn10 (addr : Byte) (f : BitVec 4) (payload : List Byte) (s : State) : Outcome :=
  .next (rejectFunction addr (functionByte (.illfn10 addr f payload)) s)

/-- ILLFN, function bytes 0x08..0x0F. -/
def execIllfn08 (addr : Byte) (f : BitVec 3) (payload : List Byte) (s : State) : Outcome :=
  .next (rejectFunction addr (functionByte (.illfn08 addr f payload)) s)

/-- ILLFN, function bytes 0x00, 0x01, 0x04, 0x05. -/
def execIllfn00 (addr : Byte) (f : BitVec 2) (payload : List Byte) (s : State) : Outcome :=
  .next (rejectFunction addr (functionByte (.illfn00 addr f payload)) s)

/-- ILLFN, function byte 0x02. -/
def execIllfn02 (addr : Byte) (payload : List Byte) (s : State) : Outcome :=
  .next (rejectFunction addr (functionByte (.illfn02 addr payload)) s)

/-- ILLFN, function byte 0x07. -/
def execIllfn07 (addr : Byte) (payload : List Byte) (s : State) : Outcome :=
  .next (rejectFunction addr (functionByte (.illfn07 addr payload)) s)

end Sys2Proof.Machine
end

