-- ==== Sys2Proof/Machine/WriteSingle.lean ====
section
/-! DEFINITION. Function 0x06, Write Single Register (R180 to R189). -/

namespace Sys2Proof.Machine

/-- The handler: bounds check (R183), then store write, hook, response, in this order (R184 to R187). The value is
not validated (R182). -/
def handleWrite (reg value : Half) (s : State) : State :=
  if addressLegal s.cfg reg.toNat then
    buildWriteResponse reg value (notifyHook reg value (writeRegister reg.toNat value s))
  else raiseException 0x06#8 .illegalAddress s

/-- WSR (R180). The bytes `extra` are ignored (R94). -/
def execWsr (addr : Byte) (reg value : Half) (_extra : List Byte) (s : State) : Outcome :=
  .next (finishProcess addr (handleWrite reg value s))

end Sys2Proof.Machine
end

