-- ==== Sys2Proof/Machine/Dispatch.lean ====
section
/-! DEFINITION. The meaning of every instruction (R150): what the process step does with a frame that passed the gates. -/

namespace Sys2Proof.Machine

def exec (i : Instr) (s : State) : Host.Outcome State Fault Refusal :=
  match i with
  | .rhr addr start qty extra => Sys2Proof.Machine.execRhr addr start qty extra s
  | .wsr addr reg value extra => Sys2Proof.Machine.execWsr addr reg value extra s
  | .illfn80 addr f payload => Sys2Proof.Machine.execIllfn80 addr f payload s
  | .illfn40 addr f payload => Sys2Proof.Machine.execIllfn40 addr f payload s
  | .illfn20 addr f payload => Sys2Proof.Machine.execIllfn20 addr f payload s
  | .illfn10 addr f payload => Sys2Proof.Machine.execIllfn10 addr f payload s
  | .illfn08 addr f payload => Sys2Proof.Machine.execIllfn08 addr f payload s
  | .illfn00 addr f payload => Sys2Proof.Machine.execIllfn00 addr f payload s
  | .illfn02 addr payload => Sys2Proof.Machine.execIllfn02 addr payload s
  | .illfn07 addr payload => Sys2Proof.Machine.execIllfn07 addr payload s

end Sys2Proof.Machine
end

