-- ==== Sys2Proof/Machine/Processor.lean ====
section
/-! DEFINITION. The Frame Processor (R145 to R160): the gates, the process step, the poll and the clear step. -/

namespace Sys2Proof.Machine

/-- Why one of the first three gates drops a frame (R227). -/
inductive Drop where
  /-- gate 1, R147 -/
  | tooShort
  /-- gate 2, R148 -/
  | foreignAddress
  /-- gate 3, R149 -/
  | crcMismatch
  deriving DecidableEq, Repr

/-- Gates 1 to 3 in their order (R147, R148, R149, R157); `none` when the frame passes all three. -/
def gates (slaveAddr : Byte) (frame : List Byte) : Option Drop :=
  if frame.length < Config.minFrame then some .tooShort
  else if frame.getD 0 0 ≠ slaveAddr ∧ frame.getD 0 0 ≠ Config.broadcast then some .foreignAddress
  else if !trailerMatches frame then some .crcMismatch
  else none

/-- `Process` (R146, R158): the gates, then the decoded instruction's meaning; every failure is a silent drop
(R153, R227). A frame longer than the buffer does not exist (log 9). -/
def process (s : State) : Outcome :=
  if Config.bufCap < s.rxIndex then .fault .frameBufferBounds
  else
    match gates s.slaveAddr (frameBytes s) with
    | some _ => .next (dropFrame s)
    | none =>
      match decode (frameBytes s) with
      | .error _ => .next (dropFrame s)
      | .ok i => exec i s

/-- `Poll` (R145). -/
def poll (s : State) : Outcome :=
  if s.phase = .idle ∧ s.frameReady = true then process s else .next s

/-- `Clear`, enabled in P_DONE (R156); with it the collaborators' delay ends (R272). -/
def clearStep (s : State) : State := if s.phase = .done then releaseDelayed (clear s) else s

end Sys2Proof.Machine
end

