-- ==== Sys2Proof/Machine/Receiver.lean ====
section
/-! DEFINITION. The Frame Receiver (R124 to R135): time, byte arrival, the silence timer. -/

namespace Sys2Proof.Machine

/-- The receiver's states (R30). -/
inductive RxState where
  | idle
  | accumulating
  | ready
  deriving DecidableEq, Repr

/-- The receiver state, a function of `rx_index` and `frame_ready` (R30). -/
def rxState (s : State) : RxState :=
  if s.frameReady then .ready else if s.rxIndex = 0 then .idle else .accumulating

/-- `Advance` (R125): one millisecond passes. -/
def advance (s : State) : State := { s with now := s.now + 1#32 }

/-- A byte stored at the write index (R126), or discarded because the buffer is full (R128). -/
def storeByte (b : Byte) (s : State) : State :=
  if s.rxIndex < Config.bufCap then { s with buf := s.buf.write s.rxIndex b, rxIndex := s.rxIndex + 1 } else s

/-- `RxByte(b)` (R129): no effect while a frame is ready (R127, D7); else the byte is stored if there is room, and the
timestamp is refreshed either way (R126, R128, D8). -/
def rxByte (b : Byte) (s : State) : State :=
  if s.frameReady then s else { storeByte b s with lastRxTime := s.now }

/-- `Tick` (R130): the only frame boundary. -/
def tick (s : State) : State :=
  if !s.frameReady && decide (0 < s.rxIndex) && silenceReached s then { s with frameReady := true } else s

/-- A byte and a tick in the same instant (R134, D10): the two steps, in SIMUL_ORDER's order, become the next two of
the schedule; where the order is left free, a free value decides it (log 6). -/
def rxByteWithTick (b : Byte) (s : State) : State :=
  let byteFirst : Bool := match s.cfg.simulOrder with
    | .byteFirst => true
    | .tickFirst => false
    | .free => Config.freeByteFirst s.orderCount
  { s with
    events := if byteFirst then .rxByte b :: .tick :: s.events else .tick :: .rxByte b :: s.events
    orderCount := s.orderCount + 1 }

end Sys2Proof.Machine
end

