-- ==== Sys2Proof/Machine/ResetStep.lean ====
section
/-! DEFINITION. The `Reset` input in the middle of a run (R260, R261). -/

namespace Sys2Proof.Machine

/-- `Reset`: every element at its reset value, the configuration input sampled, and `DE(0)` recorded if the line was in
transmit. What is outside the block stays: the trace already emitted and the schedule, the delayed accesses of the
collaborators at its head (logs 14, 17). -/
def resetStep (s : State) : State :=
  { State.resetFor s.cfg with
    events := s.delayed.map Access.event ++ s.events
    trace := if s.de then s.trace ++ [.de false] else s.trace
    orderCount := s.orderCount }

end Sys2Proof.Machine
end

