-- ==== Sys2Proof/Machine/Transmitter.lean ====
section
/-! DEFINITION. The Response Transmitter and the Direction Controller (R200 to R213). A step that is not enabled leaves the
state as it is (R205, log 4). -/

namespace Sys2Proof.Machine

/-- `GuardPre` (R201). -/
def guardPre (s : State) : State :=
  if s.phase = .guardPre then { setTransmit true s with phase := .send } else s

/-- `SendByte` (R203): one response byte to the byte sink. A response byte outside the buffer does not exist (log 9). -/
def sendByte (s : State) : Outcome :=
  if s.phase = .send ∧ s.txIdx < s.respLen then
    if s.txIdx < Config.respCap then
      .next { emit (.tx (s.resp.read s.txIdx)) s with txIdx := s.txIdx + 1 }
    else .fault .responseBufferBounds
  else .next s

/-- `SendDone` (R204). -/
def sendDone (s : State) : State :=
  if s.phase = .send ∧ s.txIdx = s.respLen then { s with phase := .waitTc } else s

/-- `Tc` (R205): "a `Tc` in any other phase has no effect". -/
def tc (s : State) : State := if s.phase = .waitTc then { s with phase := .guardPost } else s

/-- `GuardPost` (R206). -/
def guardPost (s : State) : State :=
  if s.phase = .guardPost then { setTransmit false s with phase := .done } else s

/-- `TcTimeout` (R207), never enabled when T_TC_TIMEOUT is `none` (R208). -/
def tcTimeout (s : State) : State :=
  if s.phase = .waitTc ∧ s.cfg.tcTimeout.isSome = true then
    { raiseTxFault (setTransmit false s) with phase := .done }
  else s

end Sys2Proof.Machine
end

