-- ==== Sys2Proof/Machine/Agents.lean ====
section
/-! DEFINITION. The agents (R48): what each event does, and what the main loop does when no event is queued. -/

namespace Sys2Proof.Machine

/-- The step an event of the schedule stands for (R48). -/
def runEvent (e : Event) (s : State) : Outcome :=
  match e with
  | .rxByte b => .next (rxByte b s)
  | .advance => .next (advance s)
  | .tick => .next (tick s)
  | .rxByteWithTick b => .next (rxByteWithTick b s)
  | .poll => poll s
  | .guardPre => .next (guardPre s)
  | .sendByte => sendByte s
  | .sendDone => .next (sendDone s)
  | .tc => .next (tc s)
  | .tcTimeout => .next (tcTimeout s)
  | .guardPost => .next (guardPost s)
  | .clear => .next (clearStep s)
  | .collabRead a => .next (collabRead a s)
  | .collabWrite a v => .next (collabWrite a v s)
  | .reset => .next (resetStep s)

/-- The main loop's own next step in each phase (R36's column "left by"). In P_WAIT_TC it only waits: it leaves that
phase by `Tc`, by the timeout or by `Reset`, which are events (R208). -/
def mainEvent (s : State) : Option Event :=
  match s.phase with
  | .idle => some .poll
  | .guardPre => some .guardPre
  | .send => if s.txIdx < s.respLen then some .sendByte else some .sendDone
  | .waitTc => none
  | .guardPost => some .guardPost
  | .done => some .clear

/-- With no event queued the main loop goes on by itself (R278: a run is finished when no step with an effect is
enabled; log 3). -/
def runMain (s : State) : Outcome :=
  match mainEvent s with
  | some e => runEvent e s
  | none => .next s

/-- One atomic step of the agent whose turn it is. -/
def runNext (s : State) : Outcome :=
  match s.events with
  | e :: rest => runEvent e { s with events := rest }
  | [] => runMain s

end Sys2Proof.Machine
end

