-- ==== Sys2Proof/Machine/Step.lean ====
section
/-! DEFINITION. One step of the machine, and how a table word is put where the next step fetches it. -/

namespace Sys2Proof.Machine

/-- One step: a build the spec says to refuse is refused (U5, U6, log 8); else the next agent moves (R48). -/
def step (s : State) : Host.Outcome State Fault Refusal :=
  if s.cfg.legal then runNext s else .refused .illegalBuild

/-- `s` with the table word's frame received, ready and addressed to this slave, and its poll next (log 11). -/
def State.withFetchWord (s : State) (nbits w : Nat) : State := placeFrame (tableFrame nbits w) s

end Sys2Proof.Machine
end

