-- ==== Sys2Proof/Safety.lean ====
section
/-! DEFINITION. What a safe run is: the invariant of the block, the bus discipline of its output trace, the equivalence up to
hidden bytes, and the process step written out as R158 writes it. The terms the claims are stated in. -/

namespace Sys2Proof.Machine

/-- `n` steps of the machine, as the host's interface runs it. -/
def runSteps (n : Nat) (s : State) : Outcome := core.run n s

/-- The event the next step carries out: the head of the schedule, or the main loop's own step. -/
def nextEvent (s : State) : Option Event :=
  match s.events with
  | e :: _ => some e
  | [] => mainEvent s

/-- The phases in which the line is in transmit (R209). -/
def sending (p : Phase) : Bool := p == .send || p == .waitTc || p == .guardPost

/-- The bus as the output trace shows it (R45, R47, R210): `none` once the trace has a TX outside a DE(1)..DE(0)
window or a DE event that is no change of level; else the level of `de` after the event. -/
def busStep (level : Option Bool) (e : Output) : Option Bool :=
  match level with
  | none => none
  | some l =>
    match e with
    | .de b => if b = l then none else some b
    | .tx _ => if l then some l else none
    | .hook _ _ => some l

/-- The level of `de` that a trace leaves, from receive; `none` for a trace that breaks the bus discipline. -/
def busLevel (trace : List Output) : Option Bool := trace.foldl busStep (some false)

/-- The invariant of the block: what every step preserves from every state that has it. -/
structure Inv (s : State) : Prop where
  /-- the build is one the spec does not refuse (U5, U6) -/
  legal : s.cfg.legal = true
  /-- "loaded at reset and never written afterwards" (R33) -/
  address : s.slaveAddr = s.cfg.slaveAddr
  /-- the three spaces are in canonical form and list only cells they have (R50) -/
  xWf : s.x.wf = true
  xBelow : s.x.below s.cfg.regCount = true
  bufWf : s.buf.wf = true
  bufBelow : s.buf.below 256 = true
  respWf : s.resp.wf = true
  respBelow : s.resp.below 256 = true
  /-- R29 (a) -/
  rxBound : s.rxIndex ≤ 256
  /-- R29 (b) -/
  readyNonempty : s.frameReady = true → 0 < s.rxIndex
  /-- R29 (d) -/
  busyReady : s.phase ≠ .idle → s.frameReady = true
  /-- R209 -/
  direction : s.de = sending s.phase
  /-- R31: resp_len is at most 255 -/
  respBound : s.respLen ≤ 255
  /-- R20: tx_idx is at most 255 -/
  txRange : s.txIdx ≤ 255
  /-- R32, while a response is on its way (after a dropped frame R158 leaves an old, dead `tx_idx` beside
  `resp_len = 0`, log 16) -/
  txBound : s.phase = .guardPre ∨ sending s.phase = true → s.txIdx ≤ s.respLen
  /-- the shortest response has five bytes (R31); it starts from byte 0 (R155) -/
  guardStart : s.phase = .guardPre → s.txIdx = 0
  answering : s.phase = .guardPre ∨ sending s.phase = true → 5 ≤ s.respLen
  /-- every byte has been handed over before the wait (R204) -/
  allSent : s.phase = .waitTc ∨ s.phase = .guardPost → s.txIdx = s.respLen
  /-- a response carries the slave's address and its own CRC (R80, R114) -/
  sealed : s.phase = .guardPre ∨ sending s.phase = true →
    s.resp.read 0 = s.slaveAddr ∧ trailerMatches (respBytes s) = true
  /-- "exists only when T_TC_TIMEOUT is not none" (R37) -/
  faultOnlyByTimeout : s.txFault = true → s.cfg.tcTimeout.isSome = true
  /-- no collaborator access waits while the port is enabled (R58, R272) -/
  noneWaiting : s.phase = .idle → s.delayed = []
  /-- the trace keeps the bus discipline and ends at the present level (R45, R47) -/
  bus : busLevel s.trace = some s.de

/-- The collaborator access that an event asks for, if it is one (R24). -/
def accessOf : Event → Option Access
  | .collabRead a => some (.read a)
  | .collabWrite a v => some (.write a v)
  | .rxByte _ => none
  | .advance => none
  | .tick => none
  | .rxByteWithTick _ => none
  | .poll => none
  | .guardPre => none
  | .sendByte => none
  | .sendDone => none
  | .tc => none
  | .tcTimeout => none
  | .guardPost => none
  | .clear => none
  | .reset => none

/-- The collaborator accesses still to be carried out, in their order: the delayed ones, then those of the schedule. -/
def accessesToCome (s : State) : List Access := s.delayed ++ s.events.filterMap accessOf

/-- Two states that differ only in bytes no rule reads (R38): cells of `buf` from `rx_index` on, and cells of `resp`
outside a response on its way. -/
structure SameVisible (s t : State) : Prop where
  /-- every field but the two buffers is equal -/
  fields : t = { s with buf := t.buf, resp := t.resp }
  bufs : ∀ a, a < s.rxIndex → t.buf.read a = s.buf.read a
  resps : s.phase = .guardPre ∨ s.phase = .send → ∀ a, a < s.respLen → t.resp.read a = s.resp.read a
  wfs : s.buf.wf = true ∧ t.buf.wf = true ∧ s.resp.wf = true ∧ t.resp.wf = true

/-- A step of one consumption from P_GUARD_PRE on (R160, R210): the main loop's steps for a response of `n` bytes, with
the transmission complete in time. -/
def sendingSchedule (n : Nat) : List Event :=
  .guardPre :: (List.replicate n .sendByte ++ [.sendDone, .tc, .guardPost, .clear])

/-- The same with the transmission-complete wait timing out (R207). -/
def timeoutSchedule (n : Nat) : List Event :=
  .guardPre :: (List.replicate n .sendByte ++ [.sendDone, .tcTimeout, .clear])

/-- What those schedules put on the output trace (R210). -/
def sentTrace (bytes : List Byte) : List Output := .de true :: (bytes.map .tx ++ [.de false])

/-- The input events of one request (R99's RXF without its pauses, then SETTLE up to the poll): its bytes, five
milliseconds, a tick, a poll. -/
def requestSchedule (frame : List Byte) : List Event :=
  frame.map .rxByte ++ List.replicate 5 .advance ++ [.tick, .poll]

/-- The next step is the poll of a received frame, in a legal build (R145, R146). -/
def PollDue (s : State) (rest : List Event) : Prop :=
  s.cfg.legal = true ∧ s.events = .poll :: rest ∧ s.phase = .idle ∧ s.frameReady = true ∧ s.rxIndex ≤ 256

/-- Body bytes followed by their CRC, low byte first (R80, R114). -/
def withCrc (body : List Byte) : List Byte :=
  body ++ [BitVec.ofNat 8 ((crc16 body).toNat % 256), BitVec.ofNat 8 ((crc16 body).toNat / 256)]

/-- `t` is `s` with the response `bytes` built: the response buffer holds `bytes` from byte 0 on and is unchanged after
them, and nothing else has changed but the two fields that the end of the process step sets (R155, decision D27; they
have a statement of their own, `Obligations.TheProcessStepEndsInDoneOrGuardPre`). -/
def Answers (s t : State) (bytes : List Byte) : Prop :=
  respBytes t = bytes ∧ (∀ a, bytes.length ≤ a → t.resp.read a = s.resp.read a)
    ∧ t = { s with resp := t.resp, respLen := bytes.length, txIdx := t.txIdx, phase := t.phase }

/-- `t` is `s` with the frame processed and no response to send, and nothing else changed but the two fields of R155;
the `n` first bytes of the response buffer may hold the response that was suppressed (R154). -/
def StaysSilent (s t : State) (n : Nat) : Prop :=
  (∀ a, n ≤ a → t.resp.read a = s.resp.read a)
    ∧ t = { s with resp := t.resp, respLen := 0, txIdx := t.txIdx, phase := t.phase }

/-- What the end of the process step makes of `tx_idx` and `phase` (R155): `s` before it, `t` after it. -/
def ProcessEnded (s t : State) : Prop :=
  (t.respLen = 0 → t.phase = .done ∧ t.txIdx = s.txIdx) ∧ (t.respLen ≠ 0 → t.phase = .guardPre ∧ t.txIdx = 0)

/-- The number of bytes of the response a request builds (R176, R185, R228). -/
def responseLength (cfg : Config) : Instr → Nat
  | .rhr _ start qty _ =>
    if 1 ≤ qty.toNat ∧ qty.toNat ≤ 125 ∧ start.toNat + qty.toNat ≤ cfg.regCount then 5 + 2 * qty.toNat else 5
  | .wsr _ reg _ _ => if reg.toNat < cfg.regCount then 8 else 5
  | .illfn80 _ _ _ => 5
  | .illfn40 _ _ _ => 5
  | .illfn20 _ _ _ => 5
  | .illfn10 _ _ _ => 5
  | .illfn08 _ _ _ => 5
  | .illfn00 _ _ _ => 5
  | .illfn02 _ _ => 5
  | .illfn07 _ _ => 5

/-- The hook event of a successful write, where a hook is attached (R186). -/
def hookTrace (cfg : Config) (reg value : Half) : List Output := if cfg.hookPresent then [.hook reg value] else []

/-- The request is a Write Single Register of an existing register (R183, R184). -/
def writesRegister (cfg : Config) : Instr → Bool
  | .wsr _ reg _ _ => decide (reg.toNat < cfg.regCount)
  | .rhr _ _ _ _ => false
  | .illfn80 _ _ _ => false
  | .illfn40 _ _ _ => false
  | .illfn20 _ _ _ => false
  | .illfn10 _ _ _ => false
  | .illfn08 _ _ _ => false
  | .illfn00 _ _ _ => false
  | .illfn02 _ _ => false
  | .illfn07 _ _ => false

/-! The process step as R158 writes it: on the bytes of `buf` and on integers, with no decoder in between. -/

/-- `MemRead(off, 2)` as an integer (R15, R87). -/
def memRead2 (s : State) (off : Nat) : Nat := 256 * (s.buf.read off).toNat + (s.buf.read (off + 1)).toNat

/-- `resp[0..]` filled with `body` and the CRC of it, low byte first. -/
def pseudoRespond (body : List Byte) (s : State) : State :=
  let c := (crc16 body).toNat
  let bytes := body ++ [BitVec.ofNat 8 (c % 256), BitVec.ofNat 8 (c / 256)]
  { s with resp := s.resp.writeList 0 bytes, respLen := bytes.length }

/-- `build_exc(fc, code)` (R228). -/
def pseudoException (fc code : Byte) (s : State) : State := pseudoRespond [s.slaveAddr, fc ||| 0x80#8, code] s

/-- `build_rhr(s, q)` (R175). -/
def pseudoRead (start q : Nat) (s : State) : State :=
  pseudoRespond (s.slaveAddr :: 0x03#8 :: BitVec.ofNat 8 (2 * q) ::
    (List.range q).flatMap fun k =>
      [BitVec.ofNat 8 ((s.x.read (start + k)).toNat / 256), BitVec.ofNat 8 ((s.x.read (start + k)).toNat % 256)]) s

/-- The write branch of R158: `x[r] <- v`, the hook, `build_wsr(r, v)`. -/
def pseudoWrite (r v : Nat) (s : State) : State :=
  let s := { s with x := s.x.write r (BitVec.ofNat 16 v) }
  let s := if s.cfg.hookPresent then
      { s with trace := s.trace ++ [.hook (BitVec.ofNat 16 r) (BitVec.ofNat 16 v)] } else s
  pseudoRespond [s.slaveAddr, 0x06#8, BitVec.ofNat 8 (r / 256), BitVec.ofNat 8 (r % 256), BitVec.ofNat 8 (v / 256),
    BitVec.ofNat 8 (v % 256)] s

/-- The dispatch of R158 on `fc = buf[1]`. -/
def pseudoDispatch (s : State) : State :=
  let fc := s.buf.read 1
  if fc = 0x03#8 then
    if 8 ≤ s.rxIndex then
      if memRead2 s 4 = 0 ∨ 125 < memRead2 s 4 then pseudoException fc 0x03#8 s
      else if s.cfg.regCount < memRead2 s 2 + memRead2 s 4 then pseudoException fc 0x02#8 s
      else pseudoRead (memRead2 s 2) (memRead2 s 4) s
    else s
  else if fc = 0x06#8 then
    if 8 ≤ s.rxIndex then
      if s.cfg.regCount ≤ memRead2 s 2 then pseudoException fc 0x02#8 s
      else pseudoWrite (memRead2 s 2) (memRead2 s 4) s
    else s
  else pseudoException fc 0x01#8 s

/-- The first three gates of R158. -/
def pseudoGates (s : State) : Bool :=
  decide (4 ≤ s.rxIndex) && (s.buf.read 0 == s.slaveAddr || s.buf.read 0 == 0x00#8)
    && decide ((crc16 (s.buf.readList 0 (s.rxIndex - 2))).toNat
        = (s.buf.read (s.rxIndex - 2)).toNat + 256 * (s.buf.read (s.rxIndex - 1)).toNat)

/-- `Process`, line for line as R158. -/
def pseudoProcess (s : State) : State :=
  let s := { s with respLen := 0 }
  let s := if pseudoGates s then
      let s := pseudoDispatch s
      if s.buf.read 0 = 0x00#8 then { s with respLen := 0 } else s
    else s
  if s.respLen = 0 then { s with phase := .done } else { s with txIdx := 0, phase := .guardPre }

end Sys2Proof.Machine
end

