-- ==== Sys2Proof/Certificates/Slice0/Obligations.lean ====
section
/-! DEFINITION. The statements for the provers, in the order of the spec's files. Where one speaks of `events`, that is the
model's schedule (log 2), for which no rule is cited. -/

open Sys2Proof Sys2Proof.Machine

/-! ### Reset, configuration, the whole state (10_state.md, 70_reset_and_hazards.md) -/

/-- R49's table for every build. The zeroes of the registers, `now` and `last_rx_time` are the spec's decision D18;
that unlisted cells of `buf` and `resp` read 0 is the model's choice (log 5) and is not stated. The last clause, that
`State.reset` is the reset state of the standard build, is the model's choice too (log 1). -/
def Obligations.ResetLeavesTheTabulatedState : Prop :=
  ∀ cfg : Config, (∀ a, (State.resetFor cfg).x.read a = 0#16)
    ∧ (State.resetFor cfg).rxIndex = 0 ∧ (State.resetFor cfg).lastRxTime = 0#32
    ∧ (State.resetFor cfg).frameReady = false ∧ (State.resetFor cfg).respLen = 0 ∧ (State.resetFor cfg).txIdx = 0
    ∧ (State.resetFor cfg).slaveAddr = cfg.slaveAddr ∧ (State.resetFor cfg).now = 0#32
    ∧ (State.resetFor cfg).de = false ∧ (State.resetFor cfg).phase = .idle ∧ (State.resetFor cfg).txFault = false
    ∧ State.reset = State.resetFor Config.standard

/-- `Reset` in every state (R260, R261; decisions D18, D30): every element of the block at its reset value, the
configuration input sampled, the line released at once, with `DE(0)` recorded if it was in transmit. That the schedule,
the trace so far and the order counter stay, and that delayed collaborator accesses then come first in the schedule, is the
model's choice (logs 14, 17). -/
def Obligations.ResetReleasesTheLineAndForgets : Prop :=
  ∀ (s : State) (rest : List Event), s.cfg.legal = true → s.events = .reset :: rest →
    ∃ t, step s = .next t ∧ (∀ a, t.x.read a = 0#16) ∧ t.rxIndex = 0 ∧ t.lastRxTime = 0#32 ∧ t.frameReady = false
      ∧ t.respLen = 0 ∧ t.txIdx = 0 ∧ t.slaveAddr = s.cfg.slaveAddr ∧ t.now = 0#32 ∧ t.de = false ∧ t.phase = .idle
      ∧ t.txFault = false ∧ t.cfg = s.cfg ∧ t.events = s.delayed.map Access.event ++ rest ∧ t.delayed = []
      ∧ t.orderCount = s.orderCount
      ∧ t.trace = s.trace ++ (if s.de then [.de false] else [])

/-- A build outside the parameters' ranges is refused at every step (U5, U6; that every step refuses it is log 8), and
a legal one never is. -/
def Obligations.IllegalBuildsAreRefused : Prop :=
  (∀ c : Config, c.legal = true ↔ 1 ≤ c.regCount ∧ c.regCount ≤ 65536 ∧ 1 ≤ c.slaveAddr.toNat ∧ c.slaveAddr.toNat ≤ 247
      ∧ c.tcTimeout ≠ some 0)
    ∧ ∀ s : State, step s = .refused .illegalBuild ↔ s.cfg.legal = false

/-- The invariant holds at reset, in every legal build. -/
def Obligations.InvariantHoldsAtReset : Prop :=
  ∀ cfg : Config, cfg.legal = true → Inv (State.resetFor cfg)

/-- Every step of every agent keeps the invariant: the receiver invariants of R29 (a), (b), (d), the direction invariant
of R209, the bound of R31 and, while a response is on its way, that of R32 (log 16), the fixed slave address of R33, the canonical form of the three spaces, a response
that carries the slave's address and its own CRC, no collaborator access waiting in P_IDLE, and an output trace with every TX between a DE(1) and the next DE(0)
(R210). -/
def Obligations.EveryStepKeepsTheInvariant : Prop :=
  ∀ s t : State, Inv s → step s = .next t → Inv t

/-- From a state with the invariant every step has a next state: no fault, no refusal (R159: no validation failure
stops the block; R60: no buffer access is out of range). -/
def Obligations.NoStepStopsFromTheInvariant : Prop :=
  ∀ s : State, Inv s → ∃ t, step s = .next t

/-- R239's table of who may write what, with its conditions, for every step and every element of the block (decision
D21): the register store only by the process step, by the collaborator in P_IDLE and by reset; the frame buffer's cell at
the write index, the index and the timestamp by an arriving byte only while no frame is ready, the index beside that only
by `Clear`; the ready flag by the tick, 0 to 1 only, and by `Clear`; the response, `tx_idx`, `de`, `phase` and the fault
flag only by the main loop's steps (the wait ended by `Tc` or its timeout among them); `now` by the time base; the slave
address by nothing; all but the configuration by reset. -/
def Obligations.EachElementHasItsWriters : Prop :=
  ∀ s t : State, step s = .next t →
    t.cfg = s.cfg
    ∧ (t.x = s.x ∨ nextEvent s = some .reset ∨ (nextEvent s = some .poll ∧ s.phase = .idle ∧ s.frameReady = true)
        ∨ ∃ a v, nextEvent s = some (.collabWrite a v) ∧ s.phase = .idle)
    ∧ (t.buf = s.buf ∨ nextEvent s = some .reset
        ∨ ∃ b, nextEvent s = some (.rxByte b) ∧ s.frameReady = false ∧ t.buf = s.buf.write s.rxIndex b)
    ∧ (t.lastRxTime = s.lastRxTime ∨ nextEvent s = some .reset
        ∨ ∃ b, nextEvent s = some (.rxByte b) ∧ s.frameReady = false)
    ∧ (t.rxIndex = s.rxIndex ∨ nextEvent s = some .reset ∨ (nextEvent s = some .clear ∧ s.phase = .done)
        ∨ ∃ b, nextEvent s = some (.rxByte b) ∧ s.frameReady = false)
    ∧ (t.frameReady = s.frameReady ∨ nextEvent s = some .reset ∨ (nextEvent s = some .clear ∧ s.phase = .done)
        ∨ (nextEvent s = some .tick ∧ s.frameReady = false ∧ t.frameReady = true))
    ∧ (t.resp = s.resp ∧ t.respLen = s.respLen ∨ nextEvent s ∈ [some .poll, some .reset])
    ∧ (t.txIdx = s.txIdx ∨ nextEvent s ∈ [some .poll, some .sendByte, some .reset])
    ∧ (t.de = s.de ∨ nextEvent s ∈ [some .guardPre, some .guardPost, some .tcTimeout, some .reset])
    ∧ (t.phase = s.phase ∨ nextEvent s ∈ [some .poll, some .guardPre, some .sendDone, some .tc, some .tcTimeout,
        some .guardPost, some .clear, some .reset])
    ∧ (t.txFault = s.txFault ∨ (nextEvent s = some .tcTimeout ∧ t.txFault = true) ∨ nextEvent s = some .reset)
    ∧ (t.slaveAddr = s.slaveAddr ∨ nextEvent s = some .reset)
    ∧ (t.now = s.now ∨ nextEvent s ∈ [some .advance, some .reset])

/-- R35: only the transmitter's steps and reset write the direction line, and the resting state is receive. -/
def Obligations.OnlyTheTransmitterTurnsTheLine : Prop :=
  (∀ cfg : Config, (State.resetFor cfg).de = false)
    ∧ ∀ s t : State, step s = .next t → t.de ≠ s.de →
      (t.de = true ∧ nextEvent s = some .guardPre ∧ s.phase = .guardPre)
      ∨ (t.de = false ∧ (nextEvent s = some .guardPost ∧ s.phase = .guardPost
          ∨ nextEvent s = some .tcTimeout ∧ s.phase = .waitTc ∨ nextEvent s = some .reset))

/-- A step emits at most one event, and each kind comes from its own step: TX from SendByte, HOOK from the process step,
DE from the steps that turn the line (R47 and the steps' own outputs). -/
def Obligations.EachStepEmitsAtMostOneEvent : Prop :=
  ∀ s t : State, step s = .next t → t.trace = s.trace
    ∨ (∃ b, t.trace = s.trace ++ [.tx b] ∧ nextEvent s = some .sendByte ∧ b = s.resp.read s.txIdx)
    ∨ (∃ a v, t.trace = s.trace ++ [.hook a v] ∧ nextEvent s = some .poll ∧ s.cfg.hookPresent = true)
    ∨ (t.trace = s.trace ++ [.de true] ∧ nextEvent s = some .guardPre)
    ∨ (t.trace = s.trace ++ [.de false]
        ∧ (nextEvent s = some .guardPost ∨ nextEvent s = some .tcTimeout ∨ nextEvent s = some .reset))

/-- Bytes no rule reads have no influence (R38): two states that differ only in cells of `buf` from `rx_index` on and
in cells of `resp` outside a response on its way make the same step, with the same outputs, and stay so related. -/
def Obligations.HiddenBytesNeverReachAnOutput : Prop :=
  ∀ s t s' : State, SameVisible s t → step s = .next s' → ∃ t', step t = .next t' ∧ SameVisible s' t'

/-- The collaborator port (R24; decisions D14, D15): a read replies the register's value, a write stores it in that
register alone and emits nothing, an address from N on is OutOfRange and changes nothing, and outside P_IDLE neither
step is taken: the access is delayed (R272), which the model records behind those already waiting (log 17). -/
def Obligations.CollaboratorPortReadsAndWrites : Prop :=
  ∀ (s : State) (a : Nat) (v : Half) (rest : List Event), s.cfg.legal = true → s.x.wf = true →
    (s.events = .collabRead a :: rest → s.phase = .idle →
      step s = .next { s with events := rest, reply := some (if a < s.cfg.regCount then .value (s.x.read a) else .outOfRange) })
    ∧ (s.events = .collabWrite a v :: rest → s.phase = .idle → a < s.cfg.regCount →
      ∃ t, step s = .next t ∧ (∀ b, t.x.read b = if b = a then v else s.x.read b)
        ∧ t = { s with events := rest, x := t.x, reply := some .ok })
    ∧ (s.events = .collabWrite a v :: rest → s.phase = .idle → s.cfg.regCount ≤ a →
      step s = .next { s with events := rest, reply := some .outOfRange })
    ∧ (s.events = .collabRead a :: rest → s.phase ≠ .idle →
      step s = .next { s with events := rest, delayed := s.delayed ++ [.read a] })
    ∧ (s.events = .collabWrite a v :: rest → s.phase ≠ .idle →
      step s = .next { s with events := rest, delayed := s.delayed ++ [.write a v] })

/-! ### Encoding (30_encoding.md) -/

/-- Decode and encode agree: the frame of every well-formed instruction of all ten constructors, every operand at every
value, decodes to that instruction. -/
def Obligations.DecodingAnEncodedRequestGivesItBack : Prop :=
  ∀ i : Instr, WellFormed i = true → decode (encode i) = .ok i

/-- Each accepted frame has one meaning: a frame whose trailer is its CRC is the encoding of the instruction it decodes
to, and that instruction is well-formed. -/
def Obligations.EncodingADecodedFrameGivesItBack : Prop :=
  ∀ (frame : List Byte) (i : Instr), decode frame = .ok i → trailerMatches frame = true →
    encode i = frame ∧ WellFormed i = true

/-- R90: all 256 function bytes are defined. Exactly one row of the table selects each; 0x03 and 0x06 with their payload
decode to their requests, every other byte to an instruction of a row that selects it, with that function byte. -/
def Obligations.EveryFunctionByteSelectsOneRow : Prop :=
  (∀ fc : Byte, (opcodeRows.filter fun r => rowSelects r fc).length = 1)
    ∧ (∀ (a b2 b3 b4 b5 : Byte) (e : List Byte), ∃ s q, decodeBody a 0x03#8 (b2 :: b3 :: b4 :: b5 :: e) = .ok (.rhr a s q e))
    ∧ (∀ (a b2 b3 b4 b5 : Byte) (e : List Byte), ∃ r v, decodeBody a 0x06#8 (b2 :: b3 :: b4 :: b5 :: e) = .ok (.wsr a r v e))
    ∧ ∀ (a fc : Byte) (p : List Byte), fc ≠ 0x03#8 → fc ≠ 0x06#8 →
        ∃ i, decodeBody a fc p = .ok i ∧ functionByte i = fc ∧ rowSelects (rowOf i) fc = true
          ∧ rowOf i ∈ opcodeRows ∧ addressByte i = a ∧ payloadBytes i = p

/-- Words written out from the rows' encodings (aaaaaaaa00000011, aaaaaaaa00000110, aaaaaaaa1fffffff, aaaaaaaa00000f0f,
…) decode to their instructions; so does the source's end-to-end request. The last two clauses, on table words, are the
model's choice (log 11): a table word is laid out as its two bytes, then operand words of zeros, then a computed trailer. -/
def Obligations.WrittenOutWordsDecode : Prop :=
  decode [0x03#8, 0x06#8, 0x00#8, 0x0B#8, 0x0F#8, 0xFF#8, 0xBC#8, 0x5A#8] = .ok (.wsr 0x03#8 0x000B#16 0x0FFF#16 [])
    ∧ decode [0x03#8, 0x03#8, 0x00#8, 0x00#8, 0x00#8, 0x02#8, 0xC5#8, 0xE9#8] = .ok (.rhr 0x03#8 0x0000#16 0x0002#16 [])
    ∧ decode [0x03#8, 0x83#8, 0x40#8, 0xE1#8] = .ok (.illfn80 0x03#8 0b0000011#7 [])
    ∧ decode [0x03#8, 0x04#8, 0x00#8, 0x83#8] = .ok (.illfn00 0x03#8 0b10#2 [])
    ∧ decodeTableWord 16 0x0003 = some (.rhr 0x00#8 0x0000#16 0x0000#16 [])
    ∧ decodeTableWord 16 0x0307 = some (.illfn07 0x03#8 [0x00#8, 0x00#8, 0x00#8, 0x00#8])

/-- R87: the 16-bit fields are the big-endian values at offsets 2 and 4, the address is byte 0, and the received CRC is
little-endian at the end of the frame. That a longer frame, up to 256 bytes, is read the same with the rest ignored is
R94's (decision D13); that the decoder reads the fields whatever the trailer is the model's (log 12). -/
def Obligations.RequestFieldsAreAssembledInWireOrder : Prop :=
  ∀ frame : List Byte, 8 ≤ frame.length → frame.length ≤ 256 →
    (frame.getD 1 0 = 0x03#8 → ∃ s q e, decode frame = .ok (.rhr (frame.getD 0 0) s q e)
      ∧ s.toNat = 256 * (frame.getD 2 0).toNat + (frame.getD 3 0).toNat
      ∧ q.toNat = 256 * (frame.getD 4 0).toNat + (frame.getD 5 0).toNat)
    ∧ (frame.getD 1 0 = 0x06#8 → ∃ r v e, decode frame = .ok (.wsr (frame.getD 0 0) r v e)
      ∧ r.toNat = 256 * (frame.getD 2 0).toNat + (frame.getD 3 0).toNat
      ∧ v.toNat = 256 * (frame.getD 4 0).toNat + (frame.getD 5 0).toNat)
    ∧ (trailerMatches frame = true ↔ (crc16 (frame.take (frame.length - 2))).toNat
        = (frame.getD (frame.length - 2) 0).toNat + 256 * (frame.getD (frame.length - 1) 0).toNat)

/-! ### CRC Engine (40_crc_engine.md) -/

/-- The source's and the catalogue's values: the empty sequence, "123456789", the end-to-end request (R113, R117). -/
def Obligations.CrcCheckValues : Prop :=
  crc16 [] = 0xFFFF#16
    ∧ crc16 [0x31#8, 0x32#8, 0x33#8, 0x34#8, 0x35#8, 0x36#8, 0x37#8, 0x38#8, 0x39#8] = 0x4B37#16
    ∧ crc16 [0x03#8, 0x06#8, 0x00#8, 0x0B#8, 0x0F#8, 0xFF#8] = 0x5ABC#16 ∧ crc16 [0xFF#8, 0xFF#8] = 0x0000#16

/-- The table-driven form equals the bit-wise definition for every input (R112). -/
def Obligations.TableDrivenCrcEqualsTheBitwiseOne : Prop :=
  ∀ bytes : List Byte, crc16Table bytes = crc16 bytes

/-- A frame with its own trailer has residue 0, and passes the comparison of gate 3 (R115, §10 item 1). -/
def Obligations.AppendingTheTrailerValidates : Prop :=
  ∀ body : List Byte, crc16 (withCrc body) = 0x0000#16 ∧ trailerMatches (withCrc body) = true

/-- Inverting any one bit of a frame that passes gate 3, in payload or trailer, makes it fail (R115). -/
def Obligations.EverySingleBitErrorIsDetected : Prop :=
  ∀ (frame : List Byte) (i k : Nat), 2 ≤ frame.length → trailerMatches frame = true → i < frame.length → k < 8 →
    trailerMatches (frame.set i (frame.getD i 0 ^^^ (1#8 <<< k))) = false

/-! ### Frame Receiver (41_frame_receiver.md) -/

/-- `Advance` (R125, decision D5): the counter modulo 2^32 and nothing else. -/
def Obligations.AdvanceCountsOneMillisecond : Prop :=
  ∀ (s : State) (rest : List Event), s.cfg.legal = true → s.events = .advance :: rest →
    step s = .next { s with events := rest, now := BitVec.ofNat 32 ((s.now.toNat + 1) % 2 ^ 32) }

/-- R126: with no frame ready and room in the buffer, the byte is stored at the write index, which moves on, and the
timestamp is taken; no other cell changes. -/
def Obligations.AnArrivingByteIsStored : Prop :=
  ∀ (s : State) (b : Byte) (rest : List Event), s.cfg.legal = true → s.events = .rxByte b :: rest → s.buf.wf = true →
    s.frameReady = false → s.rxIndex < 256 →
    ∃ t, step s = .next t ∧ (∀ a, t.buf.read a = if a = s.rxIndex then b else s.buf.read a)
      ∧ t = { s with events := rest, buf := t.buf, rxIndex := s.rxIndex + 1, lastRxTime := s.now }

/-- A byte that comes while a frame is ready changes nothing (R127, decision D7); a byte that comes to a full buffer
only refreshes the timestamp (R128, decision D8). -/
def Obligations.ADiscardedByteChangesNoCell : Prop :=
  ∀ (s : State) (b : Byte) (rest : List Event), s.cfg.legal = true → s.events = .rxByte b :: rest →
    (s.frameReady = true → step s = .next { s with events := rest })
    ∧ (s.frameReady = false → s.rxIndex = 256 → step s = .next { s with events := rest, lastRxTime := s.now })

/-- R130: a tick makes the frame ready exactly when none is, the buffer is not empty and 5 ms or more have passed since
the last byte, modulo 2^32; it writes nothing else. -/
def Obligations.ATickSealsTheFrameAfterSilence : Prop :=
  ∀ (s : State) (rest : List Event), s.cfg.legal = true → s.events = .tick :: rest →
    step s = .next { s with
      events := rest
      frameReady := s.frameReady || (decide (0 < s.rxIndex)
        && decide (5 ≤ (s.now.toNat + 2 ^ 32 - s.lastRxTime.toNat) % 2 ^ 32)) }

/-- A byte and a tick in one instant become the next two steps, in one order or the other: the one SIMUL_ORDER gives,
and either where it is left free (R134, decision D10; log 6). -/
def Obligations.ByteAndTickInOneInstantAreOrdered : Prop :=
  ∀ (s : State) (b : Byte) (rest : List Event), s.cfg.legal = true → s.events = .rxByteWithTick b :: rest →
    ∃ first, step s = .next { s with events := first ++ rest, orderCount := s.orderCount + 1 }
      ∧ (first = [.rxByte b, .tick] ∨ first = [.tick, .rxByte b])
      ∧ (s.cfg.simulOrder = .byteFirst → first = [.rxByte b, .tick])
      ∧ (s.cfg.simulOrder = .tickFirst → first = [.tick, .rxByte b])

/-- R135, the source's scenario, for any three bytes in any legal build: bytes at 0, 1, 2 ms; not ready at a tick at
4 ms; not at 6 ms; ready at a tick at 7 ms, the frame being the three bytes. -/
def Obligations.TheTimingScenarioOfTheSource : Prop :=
  ∀ (cfg : Config) (b0 b1 b2 : Byte), cfg.legal = true →
    ∃ t4 t6 t7 : State,
      runSteps 8 { State.resetFor cfg with events :=
        [.rxByte b0, .advance, .rxByte b1, .advance, .rxByte b2, .advance, .advance, .tick] } = .next t4
      ∧ t4.now = 4#32 ∧ t4.frameReady = false ∧ t4.lastRxTime = 2#32 ∧ t4.rxIndex = 3
      ∧ runSteps 3 { t4 with events := [.advance, .advance, .tick] } = .next t6
      ∧ t6.now = 6#32 ∧ t6.frameReady = false
      ∧ runSteps 4 { t4 with events := [.advance, .advance, .advance, .tick] } = .next t7
      ∧ t7.now = 7#32 ∧ t7.frameReady = true ∧ frameBytes t7 = [b0, b1, b2]

/-- R28: the ready flag rises only by a tick with a non-empty buffer and the threshold reached, and falls only by the
consumption's Clear (or by reset, R260). -/
def Obligations.TheReadyFlagHasTwoTransitions : Prop :=
  ∀ s t : State, step s = .next t → t.frameReady ≠ s.frameReady →
    (t.frameReady = true ∧ nextEvent s = some .tick ∧ 0 < s.rxIndex
        ∧ 5 ≤ (s.now.toNat + 2 ^ 32 - s.lastRxTime.toNat) % 2 ^ 32)
    ∨ (t.frameReady = false ∧ (nextEvent s = some .clear ∧ s.phase = .done ∨ nextEvent s = some .reset))

/-- A ready frame is stable (R29 (c), R66): until the clear step or reset, no step changes the write index, the
timestamp or any cell of the frame buffer. -/
def Obligations.AReadyFrameIsStable : Prop :=
  ∀ s t : State, s.frameReady = true → step s = .next t → nextEvent s ≠ some .reset →
    ¬ (nextEvent s = some .clear ∧ s.phase = .done) →
    t.buf = s.buf ∧ t.rxIndex = s.rxIndex ∧ t.lastRxTime = s.lastRxTime ∧ t.frameReady = true

/-- The state machine of R124 on the states of R30: from Idle only to Accumulating, by a byte; from Accumulating only to
Ready, by a tick; from Ready only to Idle, by Clear; reset leads to Idle. The invariant rules out a consumption without
a ready frame. -/
def Obligations.TheReceiverStateMachine : Prop :=
  ∀ s t : State, Inv s → step s = .next t →
    rxState t = rxState s
    ∨ (rxState s = .idle ∧ rxState t = .accumulating ∧ ∃ b, nextEvent s = some (.rxByte b))
    ∨ (rxState s = .accumulating ∧ rxState t = .ready ∧ nextEvent s = some .tick)
    ∨ (rxState s = .ready ∧ rxState t = .idle ∧ nextEvent s = some .clear ∧ s.phase = .done)
    ∨ (rxState t = .idle ∧ nextEvent s = some .reset)

/-- From an idle receiver, any sequence of bytes becomes the frame, cut at 256 bytes (R96, R126; the timestamp of the
excess bytes is decision D8). -/
def Obligations.ReceivedBytesBecomeTheFrame : Prop :=
  ∀ (s : State) (bytes : List Byte) (rest : List Event), s.cfg.legal = true → s.buf.wf = true → bytes ≠ [] →
    s.events = bytes.map .rxByte ++ rest → s.frameReady = false → s.rxIndex = 0 →
    ∃ t, runSteps bytes.length s = .next t ∧ frameBytes t = bytes.take 256
      ∧ (∀ a, bytes.length ≤ a ∨ 256 ≤ a → t.buf.read a = s.buf.read a)
      ∧ t = { s with events := rest, buf := t.buf, rxIndex := min bytes.length 256, lastRxTime := s.now }

/-! ### Frame Processor (42_frame_processor.md) -/

/-- R145: a poll runs the process step when the main loop is idle and a frame is ready, and has no effect otherwise. -/
def Obligations.APollProcessesOnlyAReadyFrame : Prop :=
  ∀ (s : State) (rest : List Event), s.cfg.legal = true → s.events = .poll :: rest →
    (s.phase = .idle ∧ s.frameReady = true → step s = process { s with events := rest })
    ∧ (s.phase ≠ .idle ∨ s.frameReady = false → step s = .next { s with events := rest })

/-- A step runs the decoded instruction (R145, R146): when the frame passes the address and CRC gates and decodes to
`i`, the step that polls it is `exec i`, whether the poll stands in the schedule or is the main loop's own (log 3). -/
def Obligations.AStepRunsTheDecodedInstruction : Prop :=
  ∀ (s : State) (rest : List Event) (i : Instr), s.cfg.legal = true → s.phase = .idle → s.frameReady = true →
    s.rxIndex ≤ 256 → (s.buf.read 0 = s.slaveAddr ∨ s.buf.read 0 = 0x00#8) → trailerMatches (frameBytes s) = true →
    decode (frameBytes s) = .ok i →
    (s.events = .poll :: rest → step s = exec i { s with events := rest }) ∧ (s.events = [] → step s = exec i s)

/-- A received encoding runs: when the buffer holds the encoding of a well-formed request addressed to this slave or to
all, the poll executes that request. -/
def Obligations.AnEncodedRequestIsExecuted : Prop :=
  ∀ (s : State) (rest : List Event) (i : Instr), PollDue s rest → WellFormed i = true → frameBytes s = encode i →
    (addressByte i = s.slaveAddr ∨ addressByte i = 0x00#8) → step s = exec i { s with events := rest }

/-- End to end: from an idle receiver, the bytes of a well-formed request addressed to this slave or to all, then five
milliseconds, a tick and a poll, execute that request on the state in which it stands in the buffer (R3, R126, R130,
R145). -/
def Obligations.ARequestIsReceivedAndExecuted : Prop :=
  ∀ (s : State) (rest : List Event) (i : Instr), s.cfg.legal = true → s.buf.wf = true → WellFormed i = true →
    s.phase = .idle → s.frameReady = false → s.rxIndex = 0 →
    (addressByte i = s.slaveAddr ∨ addressByte i = 0x00#8) → s.events = requestSchedule (encode i) ++ rest →
    ∃ t, runSteps ((encode i).length + 7) s = exec i t ∧ frameBytes t = encode i
      ∧ (∀ a, (encode i).length ≤ a → t.buf.read a = s.buf.read a)
      ∧ t = { s with events := rest, buf := t.buf, rxIndex := (encode i).length, lastRxTime := s.now,
                     frameReady := true, now := s.now + 5#32 }

/-- R147, R148, R149: a frame of fewer than four bytes, or for another address, or whose trailer is not the CRC of the
bytes before it, is dropped: no response, no register, no output, nothing else but the phase (whose value is the next
but one statement's). -/
def Obligations.FramesThatFailAGateAreDroppedSilently : Prop :=
  ∀ (s : State) (rest : List Event), PollDue s rest →
    (s.rxIndex < 4 ∨ (s.buf.read 0 ≠ s.slaveAddr ∧ s.buf.read 0 ≠ 0x00#8)
      ∨ (crc16 (s.buf.readList 0 (s.rxIndex - 2))).toNat
          ≠ (s.buf.read (s.rxIndex - 2)).toNat + 256 * (s.buf.read (s.rxIndex - 1)).toNat) →
    ∃ t, step s = .next t ∧ t = { s with events := rest, respLen := 0, phase := t.phase }

/-- A 0x03 or 0x06 frame without its four payload bytes is dropped like noise (decision D12): no response, so the process
step ends in P_DONE (R155, decision D27), and nothing else changes. -/
def Obligations.ShortRegisterRequestsAreDropped : Prop :=
  ∀ (s : State) (rest : List Event), PollDue s rest → s.rxIndex < 8 →
    (s.buf.read 1 = 0x03#8 ∨ s.buf.read 1 = 0x06#8) →
    step s = .next { s with events := rest, respLen := 0, phase := .done }

/-- The end of the process step (R155, decision D27), for every frame and for every request: with no response the
consumption is over and `tx_idx` stays; with one the response waits for the guard interval, to be sent from byte 0. -/
def Obligations.TheProcessStepEndsInDoneOrGuardPre : Prop :=
  (∀ s t : State, process s = .next t → ProcessEnded s t) ∧ ∀ (i : Instr) (s t : State), exec i s = .next t → ProcessEnded s t

/-- The process step, with its decoder and its handlers, is the pseudocode of R158 on every state it can meet. -/
def Obligations.TheProcessStepIsItsPseudocode : Prop :=
  ∀ s : State, s.rxIndex ≤ 256 → process s = .next (pseudoProcess s)

/-- Every request completes, whatever its operands and the state (R159), and leaves unchanged everything but the
response, `tx_idx`, the phase and, for a Write Single Register of an existing register, that one register and the trace,
which its hook event extends (R146, R184, R186, R236). -/
def Obligations.EveryRequestCompletesWithinItsFrame : Prop :=
  ∀ (i : Instr) (s : State), s.resp.wf = true → ∃ t, exec i s = .next t
    ∧ t = { s with x := t.x, resp := t.resp, respLen := t.respLen, txIdx := t.txIdx, phase := t.phase, trace := t.trace }
    ∧ t.respLen = (if addressByte i = 0x00#8 then 0 else responseLength s.cfg i)
    ∧ (∀ a, responseLength s.cfg i ≤ a → t.resp.read a = s.resp.read a)
    ∧ (writesRegister s.cfg i = false → t.x = s.x ∧ t.trace = s.trace)
    ∧ (∀ a r v e, i = .wsr a r v e → r.toNat < s.cfg.regCount → t.trace = s.trace ++ hookTrace s.cfg r v
        ∧ (s.x.wf = true → ∀ k, t.x.read k = if k = r.toNat then v else s.x.read k))

/-- R154: a broadcast request is executed and never answered. A write to an existing register stores and notifies the
hook; every other broadcast request changes no register and emits nothing. -/
def Obligations.BroadcastIsNeverAnswered : Prop :=
  ∀ (i : Instr) (s : State), s.x.wf = true → s.resp.wf = true → addressByte i = 0x00#8 →
    ∃ t, exec i s = .next t ∧ StaysSilent { s with x := t.x, trace := t.trace } t (responseLength s.cfg i)
      ∧ (∀ a r v e, i = .wsr a r v e → r.toNat < s.cfg.regCount →
          (∀ k, t.x.read k = if k = r.toNat then v else s.x.read k) ∧ t.trace = s.trace ++ hookTrace s.cfg r v)
      ∧ (writesRegister s.cfg i = false → t.x = s.x ∧ t.trace = s.trace)

/-- R152: every unsupported function byte, by its eight rows, is answered with ILLEGAL_FUNCTION and its own function
byte with bit 7 set; on broadcast nothing is answered. No register is written and no hook event emitted, whatever the
payload. -/
def Obligations.UnsupportedFunctionsAreAnswered : Prop :=
  ∀ (s : State) (a : Byte) (p : List Byte) (i : Instr), s.resp.wf = true →
    ((∃ f, i = .illfn80 a f p) ∨ (∃ f, i = .illfn40 a f p) ∨ (∃ f, i = .illfn20 a f p) ∨ (∃ f, i = .illfn10 a f p)
      ∨ (∃ f, i = .illfn08 a f p) ∨ (∃ f, i = .illfn00 a f p) ∨ i = .illfn02 a p ∨ i = .illfn07 a p) →
    ∃ t, exec i s = .next t
      ∧ (a ≠ 0x00#8 → Answers s t (withCrc [s.slaveAddr, functionByte i ||| 0x80#8, 0x01#8]))
      ∧ (a = 0x00#8 → StaysSilent s t 5)

/-- `Clear` (R156, decision D9): in P_DONE the receiver returns to Idle and the main loop to P_IDLE, in one step that
leaves the bytes of the buffer, and the collaborator accesses delayed till then (R272) are the next steps (log 17); in any
other phase it is not taken (log 4). -/
def Obligations.ClearEndsTheConsumption : Prop :=
  ∀ (s : State) (rest : List Event), s.cfg.legal = true → s.events = .clear :: rest →
    (s.phase = .done → step s = .next { s with
      events := s.delayed.map Access.event ++ rest, delayed := [], rxIndex := 0, frameReady := false, phase := .idle })
    ∧ (s.phase ≠ .done → step s = .next { s with events := rest })

/-! ### Function Handlers (43_function_handlers.md) -/

/-- R175: a read of a legal quantity within the store answers with the address, the function, the byte count, each
register's value big-endian in ascending order, and the CRC; nothing else changes. -/
def Obligations.AReadAnswersTheRegisters : Prop :=
  ∀ (s : State) (a : Byte) (start qty : Half) (e : List Byte), s.resp.wf = true → a ≠ 0x00#8 →
    1 ≤ qty.toNat → qty.toNat ≤ 125 → start.toNat + qty.toNat ≤ s.cfg.regCount →
    ∃ t, exec (.rhr a start qty e) s = .next t
      ∧ Answers s t (withCrc (s.slaveAddr :: 0x03#8 :: BitVec.ofNat 8 (2 * qty.toNat) ::
          (List.range qty.toNat).flatMap fun k =>
            [BitVec.ofNat 8 ((s.x.read (start.toNat + k)).toNat / 256),
             BitVec.ofNat 8 ((s.x.read (start.toNat + k)).toNat % 256)]))

/-- R172: a quantity of 0 or above 125 is ILLEGAL_VALUE, whatever the address; nothing but the response changes. -/
def Obligations.AReadOfAnIllegalQuantityIsRejected : Prop :=
  ∀ (s : State) (a : Byte) (start qty : Half) (e : List Byte), s.resp.wf = true → a ≠ 0x00#8 →
    (qty.toNat = 0 ∨ 125 < qty.toNat) →
    ∃ t, exec (.rhr a start qty e) s = .next t ∧ Answers s t (withCrc [s.slaveAddr, 0x83#8, 0x03#8])

/-- A legal quantity whose range runs past the store is ILLEGAL_ADDRESS (R174); the sum is exact and does not wrap (R173,
decision D11). -/
def Obligations.AReadPastTheStoreIsRejected : Prop :=
  ∀ (s : State) (a : Byte) (start qty : Half) (e : List Byte), s.resp.wf = true → a ≠ 0x00#8 →
    1 ≤ qty.toNat → qty.toNat ≤ 125 → s.cfg.regCount < start.toNat + qty.toNat →
    ∃ t, exec (.rhr a start qty e) s = .next t ∧ Answers s t (withCrc [s.slaveAddr, 0x83#8, 0x02#8])

/-- A write to an existing register changes exactly that register (R184) and answers with an echo of the request,
freshly summed (R185); the hook event comes with it where a hook is attached (R186, decision D14). The value is any
value. -/
def Obligations.AWriteStoresAndEchoes : Prop :=
  ∀ (s : State) (a : Byte) (reg value : Half) (e : List Byte), s.x.wf = true → s.resp.wf = true → a ≠ 0x00#8 →
    reg.toNat < s.cfg.regCount →
    ∃ t, exec (.wsr a reg value e) s = .next t
      ∧ (∀ k, t.x.read k = if k = reg.toNat then value else s.x.read k)
      ∧ Answers { s with x := t.x, trace := s.trace ++ hookTrace s.cfg reg value } t
          (withCrc [s.slaveAddr, 0x06#8, BitVec.ofNat 8 (reg.toNat / 256), BitVec.ofNat 8 (reg.toNat % 256),
            BitVec.ofNat 8 (value.toNat / 256), BitVec.ofNat 8 (value.toNat % 256)])

/-- R183: a write past the store is ILLEGAL_ADDRESS; the store is not written and no hook event is emitted. -/
def Obligations.AWritePastTheStoreIsRejected : Prop :=
  ∀ (s : State) (a : Byte) (reg value : Half) (e : List Byte), s.resp.wf = true → a ≠ 0x00#8 →
    s.cfg.regCount ≤ reg.toNat →
    ∃ t, exec (.wsr a reg value e) s = .next t ∧ Answers s t (withCrc [s.slaveAddr, 0x86#8, 0x02#8])

/-- Read after write (R62 (a)): what a Write Single Register stored is what a later Read Holding Registers of that
register answers, from any state in which that register still holds what the write left, whatever happened to the
others. -/
def Obligations.AReadSeesTheLastWrite : Prop :=
  ∀ (s u : State) (a b : Byte) (reg value : Half) (e e' : List Byte), s.x.wf = true → u.resp.wf = true →
    b ≠ 0x00#8 → reg.toNat < s.cfg.regCount →
    (∃ t, exec (.wsr a reg value e) s = .next t ∧ u.x.read reg.toNat = t.x.read reg.toNat ∧ u.cfg = s.cfg) →
    ∃ v, exec (.rhr b reg 1#16 e') u = .next v
      ∧ respBytes v = withCrc [u.slaveAddr, 0x03#8, 0x02#8, BitVec.ofNat 8 (value.toNat / 256),
          BitVec.ofNat 8 (value.toNat % 256)]

/-- R60: an arriving byte changes no cell but the one at the write index below 256, and none when the buffer is full;
every response has at most 255 bytes and no cell from 255 on is written. -/
def Obligations.BufferAccessesStayInBounds : Prop :=
  (∀ (s : State) (b : Byte) (a : Nat), s.buf.wf = true → (rxByte b s).buf.read a ≠ s.buf.read a →
      a = s.rxIndex ∧ a < 256)
    ∧ (∀ (s : State) (b : Byte), s.rxIndex = 256 → (rxByte b s).buf = s.buf)
    ∧ ∀ (i : Instr) (s t : State), s.resp.wf = true → exec i s = .next t →
        t.respLen ≤ 255 ∧ ∀ a, 255 ≤ a → t.resp.read a = s.resp.read a

/-! ### Transmitter and Direction Controller (44_transmit_direction.md) -/

/-- The transmitter's own steps (R201, R203, R204, R206; decisions D17, D27): where each is enabled, what it writes and
emits; where it is not enabled it changes nothing (log 4). -/
def Obligations.TheTransmitterSendsByteByByte : Prop :=
  ∀ (s : State) (rest : List Event), s.cfg.legal = true → s.respLen ≤ 255 →
    (s.events = .guardPre :: rest → step s = .next (if s.phase = .guardPre then
      { s with events := rest, de := true, trace := s.trace ++ [.de true], phase := .send } else { s with events := rest }))
    ∧ (s.events = .sendByte :: rest → step s = .next (if s.phase = .send ∧ s.txIdx < s.respLen then
      { s with events := rest, trace := s.trace ++ [.tx (s.resp.read s.txIdx)], txIdx := s.txIdx + 1 }
      else { s with events := rest }))
    ∧ (s.events = .sendDone :: rest → step s = .next (if s.phase = .send ∧ s.txIdx = s.respLen then
      { s with events := rest, phase := .waitTc } else { s with events := rest }))
    ∧ (s.events = .guardPost :: rest → step s = .next (if s.phase = .guardPost then
      { s with events := rest, de := false, trace := s.trace ++ [.de false], phase := .done } else { s with events := rest }))

/-- R205: transmission complete ends the wait, and in any other phase has no effect. -/
def Obligations.TransmissionCompleteEndsTheWait : Prop :=
  ∀ (s : State) (rest : List Event), s.cfg.legal = true → s.events = .tc :: rest →
    step s = .next { s with events := rest, phase := if s.phase = .waitTc then .guardPost else s.phase }

/-- `TcTimeout` (R207, decision D16): with a timeout configured, the wait is given up: the line released, the sticky
fault set, the consumption over; with `none`, or in another phase, it is never enabled, and the
schedule passes over it (log 4). -/
def Obligations.TheTimeoutReleasesTheLine : Prop :=
  ∀ (s : State) (rest : List Event), s.cfg.legal = true → s.events = .tcTimeout :: rest →
    (s.phase = .waitTc → s.cfg.tcTimeout ≠ none → step s = .next { s with
      events := rest, de := false, trace := s.trace ++ [.de false], txFault := true, phase := .done })
    ∧ (s.phase ≠ .waitTc ∨ s.cfg.tcTimeout = none → step s = .next { s with events := rest })

/-- With no timeout configured and no transmission complete, the block stays in P_WAIT_TC for ever, whatever else
happens short of `Reset` (R208, decision D16): the line held in transmit, the frame ready, every byte and poll without
effect. Only time moves on, and no collaborator access is carried out: each one waits, in order (R272, log 17). That the
main loop's other steps are passed over is log 4, that it waits when the schedule is empty is log 3. -/
def Obligations.WithoutTransmissionCompleteTheBlockIsStuck : Prop :=
  ∀ (n : Nat) (s : State), s.cfg.legal = true → s.cfg.tcTimeout = none → s.phase = .waitTc → s.frameReady = true →
    s.de = true → (∀ e ∈ s.events, e ≠ .tc ∧ e ≠ .reset) →
    ∃ t, runSteps n s = .next t
      ∧ t = { s with events := t.events, delayed := t.delayed, now := t.now, orderCount := t.orderCount }
      ∧ accessesToCome t = accessesToCome s

/-- One answered frame on the output trace (R210): DE(1), the response's bytes in order, DE(0), and then the receiver
idle, the frame cleared and the line in receive (decisions D17, D27 for the transmitter's own steps). The collaborator
accesses delayed so far come next in the schedule (R272, log 17). -/
def Obligations.AnAnsweredFrameOnTheWire : Prop :=
  ∀ (s : State) (rest : List Event), s.cfg.legal = true → s.phase = .guardPre → s.txIdx = 0 → s.respLen ≤ 255 →
    s.events = sendingSchedule s.respLen ++ rest →
    runSteps (s.respLen + 5) s = .next { s with
      events := s.delayed.map Access.event ++ rest, delayed := [], txIdx := s.respLen, rxIndex := 0
      frameReady := false, phase := .idle, de := false
      trace := s.trace ++ sentTrace (respBytes s) }

/-- The same frame with the wait timing out (R207, R210): the same output trace, the receiver idle, the sticky fault
set, and the delayed collaborator accesses next (R272, log 17). -/
def Obligations.ATimedOutFrameOnTheWire : Prop :=
  ∀ (s : State) (rest : List Event), s.cfg.legal = true → s.cfg.tcTimeout ≠ none → s.phase = .guardPre → s.txIdx = 0 →
    s.respLen ≤ 255 → s.events = timeoutSchedule s.respLen ++ rest →
    runSteps (s.respLen + 4) s = .next { s with
      events := s.delayed.map Access.event ++ rest, delayed := [], txIdx := s.respLen, rxIndex := 0
      frameReady := false, phase := .idle, de := false
      txFault := true, trace := s.trace ++ sentTrace (respBytes s) }

/-! ### Exceptions (60_exceptions.md) -/

/-- R230: no request is answered with code 0x04: a five-byte response carries 0x01, 0x02 or 0x03. -/
def Obligations.SlaveFailureIsNeverRaised : Prop :=
  ∀ (i : Instr) (s t : State), s.resp.wf = true → exec i s = .next t → t.respLen = 5 →
    t.resp.read 2 = 0x01#8 ∨ t.resp.read 2 = 0x02#8 ∨ t.resp.read 2 = 0x03#8

/-! ### Hazards: the collaborators (70_reset_and_hazards.md) -/

/-- No collaborator access is lost and none overtakes another (R272): a step leaves the accesses to come as they are, or it
is the oldest of them, carried out in P_IDLE (R24, R58). That `State` keeps a delayed access in a list, in its order, is
the model's choice (log 17). -/
def Obligations.NoCollaboratorAccessIsLost : Prop :=
  ∀ s t : State, Inv s → step s = .next t →
    accessesToCome t = accessesToCome s
    ∨ ∃ access, s.phase = .idle ∧ nextEvent s = some access.event ∧ accessesToCome s = access :: accessesToCome t

/-- A collaborator write that comes at any point of the sending of a response is delayed and takes effect when the
response has been sent (R272): the output trace is as without it, and the first step after `Clear` stores the value and
replies Ok (R24). That it is the first step is the model's choice (log 17). -/
def Obligations.ADelayedWriteFollowsTheResponse : Prop :=
  ∀ (s : State) (p q rest : List Event) (a : Nat) (v : Half), s.cfg.legal = true → s.x.wf = true →
    s.phase = .guardPre → s.txIdx = 0 → s.respLen ≤ 255 → s.delayed = [] → a < s.cfg.regCount →
    p ++ q = sendingSchedule s.respLen → q ≠ [] → s.events = p ++ .collabWrite a v :: q ++ rest →
    ∃ t, runSteps (s.respLen + 7) s = .next t ∧ (∀ b, t.x.read b = if b = a then v else s.x.read b)
      ∧ t = { s with
        x := t.x, events := rest, txIdx := s.respLen, rxIndex := 0, frameReady := false, phase := .idle, de := false
        trace := s.trace ++ sentTrace (respBytes s), reply := some .ok }
end

