-- ==== Sys2Proof/Laws/Bytes.lean ====
section
/-! SUPPORT. The byte-order functions as integers, and as inverses of each other. -/

namespace Sys2Proof.Machine

theorem bigEndian_toNat (a b : Byte) : (bigEndian a b).toNat = 256 * a.toNat + b.toNat := by
  have := b.isLt
  simp only [bigEndian, BitVec.toNat_append]
  rw [Nat.shiftLeft_eq, Nat.or_comm, ← Nat.shiftLeft_eq, Nat.or_comm, ← Nat.shiftLeft_add_eq_or_of_lt b.isLt,
    Nat.shiftLeft_eq]
  omega

theorem littleEndian_toNat (a b : Byte) : (littleEndian a b).toNat = a.toNat + 256 * b.toNat := by
  have : littleEndian a b = bigEndian b a := rfl
  rw [this, bigEndian_toNat, Nat.add_comm]

theorem hi8_toNat (v : Half) : (hi8 v).toNat = v.toNat / 256 := by
  have := v.isLt
  simp [hi8, BitVec.extractLsb'_toNat, Nat.shiftRight_eq_div_pow]
  omega

theorem lo8_toNat (v : Half) : (lo8 v).toNat = v.toNat % 256 := by
  simp [lo8, BitVec.extractLsb'_toNat]

theorem hi8_eq (v : Half) : hi8 v = BitVec.ofNat 8 (v.toNat / 256) := by
  apply BitVec.eq_of_toNat_eq
  have := v.isLt
  rw [hi8_toNat, BitVec.toNat_ofNat]
  omega

theorem lo8_eq (v : Half) : lo8 v = BitVec.ofNat 8 (v.toNat % 256) := by
  apply BitVec.eq_of_toNat_eq
  rw [lo8_toNat, BitVec.toNat_ofNat]
  omega

theorem bigEndian_hi8_lo8 (v : Half) : bigEndian (hi8 v) (lo8 v) = v := by
  apply BitVec.eq_of_toNat_eq
  rw [bigEndian_toNat, hi8_toNat, lo8_toNat]
  omega

theorem littleEndian_lo8_hi8 (v : Half) : littleEndian (lo8 v) (hi8 v) = v := bigEndian_hi8_lo8 v

theorem hi8_bigEndian (a b : Byte) : hi8 (bigEndian a b) = a := by
  apply BitVec.eq_of_toNat_eq
  have := b.isLt
  rw [hi8_toNat, bigEndian_toNat]
  omega

theorem lo8_bigEndian (a b : Byte) : lo8 (bigEndian a b) = b := by
  apply BitVec.eq_of_toNat_eq
  have := b.isLt
  rw [lo8_toNat, bigEndian_toNat]
  omega

theorem littleEndian_injective {a b c d : Byte} (h : littleEndian a b = littleEndian c d) : a = c ∧ b = d := by
  have h1 := congrArg lo8 h
  have h2 := congrArg hi8 h
  rw [show littleEndian a b = bigEndian b a from rfl, show littleEndian c d = bigEndian d c from rfl] at h1 h2
  rw [lo8_bigEndian, lo8_bigEndian] at h1
  rw [hi8_bigEndian, hi8_bigEndian] at h2
  exact ⟨h1, h2⟩

end Sys2Proof.Machine
end

