-- ==== Sys2Proof/Laws/Crc.lean ====
section
/-! SUPPORT. The CRC engine byte by byte, the trailer it makes, and the comparison of gate 3. -/

namespace Sys2Proof.Machine

@[simp] theorem length_trailer (bs : List Byte) : (trailer bs).length = 2 := rfl

theorem withCrc_eq (body : List Byte) : withCrc body = body ++ trailer body := by
  rw [withCrc, trailer, leBytes, hi8_eq, lo8_eq]

/-- Gate 3 on a body with two more bytes: the comparison of R115. -/
theorem trailerMatches_append (body : List Byte) (lo hi : Byte) :
    trailerMatches (body ++ [lo, hi]) = (crc16 body == littleEndian lo hi) := by
  have h1 : (body ++ [lo, hi]).length - 2 = body.length := by simp
  have h2 : (body ++ [lo, hi]).length - 1 = body.length + 1 := by simp
  rw [trailerMatches, h1, h2, List.take_left]
  congr 2
  · simp
  · simp

/-- A frame made of a body and its trailer passes gate 3 (R114, R115). -/
theorem trailerMatches_trailer (body : List Byte) : trailerMatches (body ++ trailer body) = true := by
  rw [trailer, leBytes, trailerMatches_append, littleEndian_lo8_hi8]
  exact beq_self_eq_true _

@[simp] theorem crcFrom_append (c : Half) (p q : List Byte) : crcFrom c (p ++ q) = crcFrom (crcFrom c p) q := by
  simp [crcFrom, List.foldl_append]

@[simp] theorem crcFrom_cons (c : Half) (b : Byte) (q : List Byte) : crcFrom c (b :: q) = crcFrom (crcByte c b) q := rfl
@[simp] theorem crcFrom_nil (c : Half) : crcFrom c [] = c := rfl

theorem crcBit_odd {c : Half} (h : c.getLsbD 0 = true) : crcBit c = (c >>> 1) ^^^ 0xA001#16 := if_pos h

theorem crcBit_even {c : Half} (h : c.getLsbD 0 = false) : crcBit c = c >>> 1 := by
  rw [crcBit, h]; rfl

end Sys2Proof.Machine
end

