-- ==== Sys2Proof/Laws/Decode.lean ====
section
/-! SUPPORT. What the decoder and the encoder do, frame by frame. -/

namespace Sys2Proof.Machine

/-- A frame of legal length decodes by its function byte and its payload alone. -/
theorem decode_frame (a fc : Byte) (p : List Byte) (lo hi : Byte) (h : p.length + 4 ≤ 256) :
    decode (a :: fc :: (p ++ [lo, hi])) = decodeBody a fc p := by
  unfold decode
  have hl : (a :: fc :: (p ++ [lo, hi])).length = p.length + 4 := by simp
  rw [hl, if_neg (by simp), if_neg (by simp; omega)]
  simp

/-- Every function byte but 0x03 and 0x06 is unsupported (R152). -/
theorem decodeBody_unsupported {fc : Byte} (h : fc ≠ 0x03#8 ∧ fc ≠ 0x06#8) (a : Byte) (p : List Byte) :
    decodeBody a fc p = .ok (decodeUnsupported a fc p) := by
  unfold decodeBody
  rw [if_neg h.1, if_neg h.2]

/-- The address and the payload pass through the decoder of unsupported bytes. -/
theorem decodeUnsupported_fields (a fc : Byte) (p : List Byte) :
    addressByte (decodeUnsupported a fc p) = a ∧ payloadBytes (decodeUnsupported a fc p) = p
      ∧ rowOf (decodeUnsupported a fc p) ∈ opcodeRows
      ∧ (WellFormed (decodeUnsupported a fc p) = unsupportedFrameFits p) := by
  unfold decodeUnsupported
  repeat' split
  all_goals exact ⟨rfl, rfl, by simp [rowOf, opcodeRows], rfl⟩

/-- So does the function byte. -/
theorem functionByte_decodeUnsupported (a fc : Byte) (p : List Byte) (h3 : fc ≠ 0x03#8) (h6 : fc ≠ 0x06#8) :
    functionByte (decodeUnsupported a fc p) = fc := by
  revert fc
  have : ∀ fc : Byte, fc ≠ 0x03#8 → fc ≠ 0x06#8 → functionByte (decodeUnsupported 0#8 fc []) = fc := by
    decide +kernel
  intro fc h3 h6
  have e : ∀ a p, functionByte (decodeUnsupported a fc p) = functionByte (decodeUnsupported 0#8 fc []) := by
    intro a p
    unfold decodeUnsupported
    repeat' split
    all_goals rfl
  rw [e, this fc h3 h6]

/-- A list of two or more bytes ends in two bytes. -/
theorem split_frame (f : List Byte) (h : 2 ≤ f.length) : ∃ p lo hi, f = p ++ [lo, hi] := by
  refine ⟨f.take (f.length - 2), f.getD (f.length - 2) 0, f.getD (f.length - 1) 0, ?_⟩
  apply List.ext_getElem
  · simp; omega
  · intro i h1 h2
    by_cases hi : i < f.length - 2
    · rw [List.getElem_append_left (by simp; omega)]; simp
    · rw [List.getElem_append_right (by simp; omega)]
      simp only [List.length_take]
      have : i = f.length - 2 ∨ i = f.length - 1 := by omega
      have hm : min (f.length - 2) f.length = f.length - 2 := by omega
      rcases this with rfl | rfl
      · simp [List.getD_eq_getElem?_getD, h1]
      · simp [List.getD_eq_getElem?_getD, h1, show f.length - 1 - (f.length - 2) = 1 by omega]

/-- What the decoder accepts. -/
theorem decode_ok {f : List Byte} {i : Instr} (h : decode f = .ok i) :
    ∃ a fc p lo hi, f = a :: fc :: (p ++ [lo, hi]) ∧ p.length + 4 ≤ 256 ∧ decodeBody a fc p = .ok i := by
  unfold decode at h
  split at h
  · cases h
  · split at h
    · cases h
    · rename_i h4 h256
      split at h
      · rename_i a fc rest
        simp only [List.length_cons, Config.minFrame, Config.bufCap] at h4 h256
        obtain ⟨p, lo, hi, rfl⟩ := split_frame rest (by omega)
        refine ⟨a, fc, p, lo, hi, rfl, ?_, ?_⟩
        · simp at h256; omega
        · simpa using h
      · cases h

theorem encode_cons (i : Instr) :
    encode i = addressByte i :: functionByte i :: (payloadBytes i ++ trailer (encodeBody i)) := rfl

/-- The length of a frame. -/
theorem length_encode (i : Instr) : (encode i).length = (payloadBytes i).length + 4 := by simp [encode, encodeBody]

/-- Well-formed means that the frame fits the buffer (R96). -/
theorem wellFormed_iff (i : Instr) : WellFormed i = true ↔ (encode i).length ≤ 256 := by
  rw [length_encode]
  cases i <;> simp [WellFormed, registerFrameFits, unsupportedFrameFits, payloadBytes, beBytes]

end Sys2Proof.Machine
end

