-- ==== Sys2Proof/Laws/Memory.lean ====
section
/-! SUPPORT. The laws of a storage space: read after write, and that every write keeps the canonical form. -/

namespace Sys2Proof.Machine

variable {w : Nat}

@[simp] theorem Memory.read_nil (a : Nat) : Memory.read ([] : Memory w) a = Memory.blank w := rfl

theorem Memory.wfFrom_mono {m : Memory w} {lo hi : Nat} (h : Memory.wfFrom hi m = true) (hle : lo ≤ hi) :
    Memory.wfFrom lo m = true := by
  cases m with
  | nil => rfl
  | cons c m =>
    obtain ⟨a, v⟩ := c
    simp only [Memory.wfFrom, Bool.and_eq_true, decide_eq_true_eq] at h ⊢
    exact ⟨⟨Nat.le_trans hle h.1.1, h.1.2⟩, h.2⟩

/-- Below its first possible address a space in canonical form lists nothing. -/
theorem Memory.read_of_lt {m : Memory w} {lo a : Nat} (h : Memory.wfFrom lo m = true) (ha : a < lo) :
    m.read a = Memory.blank w := by
  induction m generalizing lo with
  | nil => rfl
  | cons c m ih =>
    obtain ⟨b, v⟩ := c
    simp only [Memory.wfFrom, Bool.and_eq_true, decide_eq_true_eq] at h
    have hne : a ≠ b := by omega
    rw [Memory.read, if_neg hne]
    exact ih h.2 (by omega)

theorem Memory.read_consCell {m : Memory w} {a b : Nat} {v : BitVec w} (h : Memory.wfFrom (a + 1) m = true) :
    (Memory.consCell a v m).read b = if b = a then v else m.read b := by
  unfold Memory.consCell
  by_cases hv : v = Memory.blank w
  · rw [if_pos hv]
    by_cases hb : b = a
    · rw [if_pos hb, hb, hv]
      exact Memory.read_of_lt h (Nat.lt_succ_self a)
    · rw [if_neg hb]
  · rw [if_neg hv, Memory.read]

theorem Memory.wfFrom_consCell {m : Memory w} {lo a : Nat} {v : BitVec w} (h : Memory.wfFrom (a + 1) m = true)
    (hlo : lo ≤ a) : Memory.wfFrom lo (Memory.consCell a v m) = true := by
  unfold Memory.consCell
  by_cases hv : v = Memory.blank w
  · rw [if_pos hv]
    exact Memory.wfFrom_mono h (by omega)
  · rw [if_neg hv]
    simp only [Memory.wfFrom, Bool.and_eq_true, decide_eq_true_eq]
    exact ⟨⟨hlo, hv⟩, h⟩

theorem Memory.wfFrom_write {m : Memory w} {lo a : Nat} {v : BitVec w} (h : Memory.wfFrom lo m = true)
    (hlo : lo ≤ a) : Memory.wfFrom lo (m.write a v) = true := by
  induction m generalizing lo with
  | nil => exact Memory.wfFrom_consCell rfl hlo
  | cons c m ih =>
    obtain ⟨b, u⟩ := c
    have h' := h
    simp only [Memory.wfFrom, Bool.and_eq_true, decide_eq_true_eq] at h
    rw [Memory.write]
    by_cases hab : a < b
    · rw [if_pos hab]
      refine Memory.wfFrom_consCell ?_ hlo
      simp only [Memory.wfFrom, Bool.and_eq_true, decide_eq_true_eq]
      exact ⟨⟨hab, h.1.2⟩, h.2⟩
    · rw [if_neg hab]
      by_cases he : a = b
      · rw [if_pos he]
        exact Memory.wfFrom_consCell (he ▸ h.2) hlo
      · rw [if_neg he]
        simp only [Memory.wfFrom, Bool.and_eq_true, decide_eq_true_eq]
        exact ⟨h.1, ih h.2 (by omega)⟩

theorem Memory.read_write_from {m : Memory w} {lo a b : Nat} {v : BitVec w} (h : Memory.wfFrom lo m = true) :
    (m.write a v).read b = if b = a then v else m.read b := by
  induction m generalizing lo with
  | nil => exact Memory.read_consCell rfl
  | cons c m ih =>
    obtain ⟨d, u⟩ := c
    simp only [Memory.wfFrom, Bool.and_eq_true, decide_eq_true_eq] at h
    rw [Memory.write]
    by_cases had : a < d
    · rw [if_pos had]
      refine Memory.read_consCell ?_
      simp only [Memory.wfFrom, Bool.and_eq_true, decide_eq_true_eq]
      exact ⟨⟨had, h.1.2⟩, h.2⟩
    · rw [if_neg had]
      by_cases he : a = d
      · subst he
        rw [if_pos rfl, Memory.read_consCell h.2, Memory.read]
        by_cases hb : b = a
        · simp [hb]
        · simp [hb]
      · rw [if_neg he, Memory.read, ih h.2]
        by_cases hbd : b = d
        · subst hbd
          have : b ≠ a := fun hba => he hba.symm
          simp [Memory.read, this]
        · simp [Memory.read, hbd]

/-- READ AFTER WRITE: the written cell holds the value, every other cell what it held. -/
theorem Memory.read_write {m : Memory w} (h : m.wf = true) (a b : Nat) (v : BitVec w) :
    (m.write a v).read b = if b = a then v else m.read b := Memory.read_write_from h

/-- A write keeps the canonical form. -/
theorem Memory.wf_write {m : Memory w} (h : m.wf = true) (a : Nat) (v : BitVec w) : (m.write a v).wf = true :=
  Memory.wfFrom_write h (Nat.zero_le a)

theorem Memory.below_consCell {m : Memory w} {n a : Nat} {v : BitVec w} (h : m.below n = true) (ha : a < n) :
    (Memory.consCell a v m).below n = true := by
  unfold Memory.consCell
  split
  · exact h
  · simpa [Memory.below, ha] using h

/-- A write below `n` keeps every listed address below `n`. -/
theorem Memory.below_write {m : Memory w} {n a : Nat} {v : BitVec w} (h : m.below n = true) (ha : a < n) :
    (m.write a v).below n = true := by
  induction m with
  | nil => exact Memory.below_consCell h ha
  | cons c m ih =>
    obtain ⟨b, u⟩ := c
    have hb : b < n ∧ Memory.below n m = true := by simpa [Memory.below] using h
    rw [Memory.write]
    split
    · exact Memory.below_consCell h ha
    · split
      · exact Memory.below_consCell hb.2 ha
      · have := ih hb.2
        simp only [Memory.below, List.all_cons, Bool.and_eq_true, decide_eq_true_eq] at this ⊢
        exact ⟨hb.1, this⟩

theorem Memory.wf_writeList {m : Memory w} (h : m.wf = true) (a : Nat) (vs : List (BitVec w)) :
    (m.writeList a vs).wf = true := by
  induction vs generalizing m a with
  | nil => exact h
  | cons v vs ih => exact ih (Memory.wf_write h a v) (a + 1)

theorem Memory.below_writeList {m : Memory w} {n a : Nat} {vs : List (BitVec w)} (h : m.below n = true)
    (ha : a + vs.length ≤ n) : (m.writeList a vs).below n = true := by
  induction vs generalizing m a with
  | nil => exact h
  | cons v vs ih =>
    rw [List.length_cons] at ha
    exact ih (Memory.below_write h (by omega)) (by omega)

/-- Every cell after a list of cells is written. -/
theorem Memory.read_writeList {m : Memory w} (h : m.wf = true) (a b : Nat) (vs : List (BitVec w)) :
    (m.writeList a vs).read b =
      if a ≤ b ∧ b < a + vs.length then vs.getD (b - a) (Memory.blank w) else m.read b := by
  induction vs generalizing m a with
  | nil =>
    have : ¬ (a ≤ b ∧ b < a + ([] : List (BitVec w)).length) := by simp
    rw [if_neg this]
    rfl
  | cons v vs ih =>
    rw [Memory.writeList, ih (Memory.wf_write h a v), Memory.read_write h, List.length_cons]
    by_cases hb : b = a
    · subst hb
      have h1 : ¬ (b + 1 ≤ b ∧ b < b + 1 + vs.length) := by omega
      have h2 : b ≤ b ∧ b < b + (vs.length + 1) := by omega
      simp
    · by_cases hin : a + 1 ≤ b ∧ b < a + 1 + vs.length
      · have h2 : a ≤ b ∧ b < a + (vs.length + 1) := by omega
        obtain ⟨k, rfl⟩ : ∃ k, b = a + 1 + k := ⟨b - (a + 1), by omega⟩
        have e1 : a + 1 + k - (a + 1) = k := by omega
        have e2 : a + 1 + k - a = k + 1 := by omega
        rw [if_pos hin, if_pos h2, e1, e2, List.getD_cons_succ]
      · have h2 : ¬ (a ≤ b ∧ b < a + (vs.length + 1)) := by omega
        rw [if_neg hin, if_neg hb, if_neg h2]

@[simp] theorem Memory.length_readList (m : Memory w) (a n : Nat) : (m.readList a n).length = n := by
  induction n generalizing a with
  | zero => rfl
  | succ n ih => rw [Memory.readList, List.length_cons, ih]

/-- The `i`-th of the cells read. -/
theorem Memory.getD_readList (m : Memory w) (a n i : Nat) (d : BitVec w) (hi : i < n) :
    (m.readList a n).getD i d = m.read (a + i) := by
  induction n generalizing a i with
  | zero => omega
  | succ n ih =>
    rw [Memory.readList]
    cases i with
    | zero => rfl
    | succ i =>
      rw [List.getD_cons_succ, ih (a + 1) i (by omega)]
      congr 1
      omega

/-- Cells that agree read as the same list. -/
theorem Memory.readList_congr {m m' : Memory w} {a n : Nat} (h : ∀ b, a ≤ b → b < a + n → m.read b = m'.read b) :
    m.readList a n = m'.readList a n := by
  induction n generalizing a with
  | zero => rfl
  | succ n ih =>
    rw [Memory.readList, Memory.readList, h a (Nat.le_refl a) (by omega), ih]
    intro b hb hb'
    exact h b (by omega) (by omega)

/-- The cells just written read back as the list written. -/
theorem Memory.readList_writeList {m : Memory w} (h : m.wf = true) (a : Nat) (vs : List (BitVec w)) :
    (m.writeList a vs).readList a vs.length = vs := by
  apply List.ext_getElem
  · simp
  · intro i h1 h2
    have hi : i < vs.length := h2
    have := Memory.getD_readList (m.writeList a vs) a vs.length i (Memory.blank w) hi
    rw [Memory.read_writeList h] at this
    have hc : a ≤ a + i ∧ a + i < a + vs.length := by omega
    rw [if_pos hc, Nat.add_sub_cancel_left] at this
    rw [List.getD_eq_getElem _ _ h1, List.getD_eq_getElem _ _ h2] at this
    exact this

/-- A shorter prefix of the cells read. -/
theorem Memory.take_readList (m : Memory w) (a n k : Nat) (hk : k ≤ n) :
    (m.readList a n).take k = m.readList a k := by
  induction n generalizing a k with
  | zero =>
    have : k = 0 := by omega
    subst this
    rfl
  | succ n ih =>
    cases k with
    | zero => rfl
    | succ k => rw [Memory.readList, List.take_succ_cons, ih (a + 1) k (by omega), Memory.readList]

/-- One more cell at the end. -/
theorem Memory.readList_succ (m : Memory w) (a n : Nat) : m.readList a (n + 1) = m.readList a n ++ [m.read (a + n)] := by
  induction n generalizing a with
  | zero => rfl
  | succ n ih =>
    rw [Memory.readList, ih (a + 1)]
    conv => rhs; rw [Memory.readList]
    rw [List.cons_append, show a + 1 + n = a + (n + 1) by omega]

end Sys2Proof.Machine
end

