-- ==== Sys2Proof/Laws/State.lean ====
section
/-! SUPPORT. One lemma per field per update: what each named update of the state does to each field. -/

namespace Sys2Proof.Machine

@[simp] theorem emit_cfg (e : Output) (s : State) : (emit e s).cfg = s.cfg := rfl

@[simp] theorem emit_x (e : Output) (s : State) : (emit e s).x = s.x := rfl

@[simp] theorem emit_buf (e : Output) (s : State) : (emit e s).buf = s.buf := rfl

@[simp] theorem emit_rxIndex (e : Output) (s : State) : (emit e s).rxIndex = s.rxIndex := rfl

@[simp] theorem emit_lastRxTime (e : Output) (s : State) : (emit e s).lastRxTime = s.lastRxTime := rfl

@[simp] theorem emit_frameReady (e : Output) (s : State) : (emit e s).frameReady = s.frameReady := rfl

@[simp] theorem emit_resp (e : Output) (s : State) : (emit e s).resp = s.resp := rfl

@[simp] theorem emit_respLen (e : Output) (s : State) : (emit e s).respLen = s.respLen := rfl

@[simp] theorem emit_txIdx (e : Output) (s : State) : (emit e s).txIdx = s.txIdx := rfl

@[simp] theorem emit_slaveAddr (e : Output) (s : State) : (emit e s).slaveAddr = s.slaveAddr := rfl

@[simp] theorem emit_now (e : Output) (s : State) : (emit e s).now = s.now := rfl

@[simp] theorem emit_de (e : Output) (s : State) : (emit e s).de = s.de := rfl

@[simp] theorem emit_phase (e : Output) (s : State) : (emit e s).phase = s.phase := rfl

@[simp] theorem emit_txFault (e : Output) (s : State) : (emit e s).txFault = s.txFault := rfl

@[simp] theorem emit_events (e : Output) (s : State) : (emit e s).events = s.events := rfl

@[simp] theorem emit_delayed (e : Output) (s : State) : (emit e s).delayed = s.delayed := rfl

@[simp] theorem emit_trace (e : Output) (s : State) : (emit e s).trace = s.trace ++ [e] := rfl

@[simp] theorem emit_reply (e : Output) (s : State) : (emit e s).reply = s.reply := rfl

@[simp] theorem emit_orderCount (e : Output) (s : State) : (emit e s).orderCount = s.orderCount := rfl

@[simp] theorem setTransmit_cfg (l : Bool) (s : State) : (setTransmit l s).cfg = s.cfg := rfl

@[simp] theorem setTransmit_x (l : Bool) (s : State) : (setTransmit l s).x = s.x := rfl

@[simp] theorem setTransmit_buf (l : Bool) (s : State) : (setTransmit l s).buf = s.buf := rfl

@[simp] theorem setTransmit_rxIndex (l : Bool) (s : State) : (setTransmit l s).rxIndex = s.rxIndex := rfl

@[simp] theorem setTransmit_lastRxTime (l : Bool) (s : State) : (setTransmit l s).lastRxTime = s.lastRxTime := rfl

@[simp] theorem setTransmit_frameReady (l : Bool) (s : State) : (setTransmit l s).frameReady = s.frameReady := rfl

@[simp] theorem setTransmit_resp (l : Bool) (s : State) : (setTransmit l s).resp = s.resp := rfl

@[simp] theorem setTransmit_respLen (l : Bool) (s : State) : (setTransmit l s).respLen = s.respLen := rfl

@[simp] theorem setTransmit_txIdx (l : Bool) (s : State) : (setTransmit l s).txIdx = s.txIdx := rfl

@[simp] theorem setTransmit_slaveAddr (l : Bool) (s : State) : (setTransmit l s).slaveAddr = s.slaveAddr := rfl

@[simp] theorem setTransmit_now (l : Bool) (s : State) : (setTransmit l s).now = s.now := rfl

@[simp] theorem setTransmit_de (l : Bool) (s : State) : (setTransmit l s).de = l := rfl

@[simp] theorem setTransmit_phase (l : Bool) (s : State) : (setTransmit l s).phase = s.phase := rfl

@[simp] theorem setTransmit_txFault (l : Bool) (s : State) : (setTransmit l s).txFault = s.txFault := rfl

@[simp] theorem setTransmit_events (l : Bool) (s : State) : (setTransmit l s).events = s.events := rfl

@[simp] theorem setTransmit_delayed (l : Bool) (s : State) : (setTransmit l s).delayed = s.delayed := rfl

@[simp] theorem setTransmit_trace (l : Bool) (s : State) : (setTransmit l s).trace = s.trace ++ [.de l] := rfl

@[simp] theorem setTransmit_reply (l : Bool) (s : State) : (setTransmit l s).reply = s.reply := rfl

@[simp] theorem setTransmit_orderCount (l : Bool) (s : State) : (setTransmit l s).orderCount = s.orderCount := rfl

@[simp] theorem raiseTxFault_cfg (s : State) : (raiseTxFault s).cfg = s.cfg := rfl

@[simp] theorem raiseTxFault_x (s : State) : (raiseTxFault s).x = s.x := rfl

@[simp] theorem raiseTxFault_buf (s : State) : (raiseTxFault s).buf = s.buf := rfl

@[simp] theorem raiseTxFault_rxIndex (s : State) : (raiseTxFault s).rxIndex = s.rxIndex := rfl

@[simp] theorem raiseTxFault_lastRxTime (s : State) : (raiseTxFault s).lastRxTime = s.lastRxTime := rfl

@[simp] theorem raiseTxFault_frameReady (s : State) : (raiseTxFault s).frameReady = s.frameReady := rfl

@[simp] theorem raiseTxFault_resp (s : State) : (raiseTxFault s).resp = s.resp := rfl

@[simp] theorem raiseTxFault_respLen (s : State) : (raiseTxFault s).respLen = s.respLen := rfl

@[simp] theorem raiseTxFault_txIdx (s : State) : (raiseTxFault s).txIdx = s.txIdx := rfl

@[simp] theorem raiseTxFault_slaveAddr (s : State) : (raiseTxFault s).slaveAddr = s.slaveAddr := rfl

@[simp] theorem raiseTxFault_now (s : State) : (raiseTxFault s).now = s.now := rfl

@[simp] theorem raiseTxFault_de (s : State) : (raiseTxFault s).de = s.de := rfl

@[simp] theorem raiseTxFault_phase (s : State) : (raiseTxFault s).phase = s.phase := rfl

@[simp] theorem raiseTxFault_txFault (s : State) : (raiseTxFault s).txFault = true := rfl

@[simp] theorem raiseTxFault_events (s : State) : (raiseTxFault s).events = s.events := rfl

@[simp] theorem raiseTxFault_delayed (s : State) : (raiseTxFault s).delayed = s.delayed := rfl

@[simp] theorem raiseTxFault_trace (s : State) : (raiseTxFault s).trace = s.trace := rfl

@[simp] theorem raiseTxFault_reply (s : State) : (raiseTxFault s).reply = s.reply := rfl

@[simp] theorem raiseTxFault_orderCount (s : State) : (raiseTxFault s).orderCount = s.orderCount := rfl

@[simp] theorem writeRegister_cfg (r : Nat) (v : Half) (s : State) : (writeRegister r v s).cfg = s.cfg := rfl

@[simp] theorem writeRegister_x (r : Nat) (v : Half) (s : State) : (writeRegister r v s).x = s.x.write r v := rfl

@[simp] theorem writeRegister_buf (r : Nat) (v : Half) (s : State) : (writeRegister r v s).buf = s.buf := rfl

@[simp] theorem writeRegister_rxIndex (r : Nat) (v : Half) (s : State) :
    (writeRegister r v s).rxIndex = s.rxIndex := rfl

@[simp] theorem writeRegister_lastRxTime (r : Nat) (v : Half) (s : State) :
    (writeRegister r v s).lastRxTime = s.lastRxTime := rfl

@[simp] theorem writeRegister_frameReady (r : Nat) (v : Half) (s : State) :
    (writeRegister r v s).frameReady = s.frameReady := rfl

@[simp] theorem writeRegister_resp (r : Nat) (v : Half) (s : State) : (writeRegister r v s).resp = s.resp := rfl

@[simp] theorem writeRegister_respLen (r : Nat) (v : Half) (s : State) :
    (writeRegister r v s).respLen = s.respLen := rfl

@[simp] theorem writeRegister_txIdx (r : Nat) (v : Half) (s : State) : (writeRegister r v s).txIdx = s.txIdx := rfl

@[simp] theorem writeRegister_slaveAddr (r : Nat) (v : Half) (s : State) :
    (writeRegister r v s).slaveAddr = s.slaveAddr := rfl

@[simp] theorem writeRegister_now (r : Nat) (v : Half) (s : State) : (writeRegister r v s).now = s.now := rfl

@[simp] theorem writeRegister_de (r : Nat) (v : Half) (s : State) : (writeRegister r v s).de = s.de := rfl

@[simp] theorem writeRegister_phase (r : Nat) (v : Half) (s : State) : (writeRegister r v s).phase = s.phase := rfl

@[simp] theorem writeRegister_txFault (r : Nat) (v : Half) (s : State) :
    (writeRegister r v s).txFault = s.txFault := rfl

@[simp] theorem writeRegister_events (r : Nat) (v : Half) (s : State) : (writeRegister r v s).events = s.events := rfl

@[simp] theorem writeRegister_delayed (r : Nat) (v : Half) (s : State) : (writeRegister r v s).delayed = s.delayed := rfl

@[simp] theorem writeRegister_trace (r : Nat) (v : Half) (s : State) : (writeRegister r v s).trace = s.trace := rfl

@[simp] theorem writeRegister_reply (r : Nat) (v : Half) (s : State) : (writeRegister r v s).reply = s.reply := rfl

@[simp] theorem writeRegister_orderCount (r : Nat) (v : Half) (s : State) :
    (writeRegister r v s).orderCount = s.orderCount := rfl

@[simp] theorem loadResponse_cfg (body : List Byte) (s : State) : (loadResponse body s).cfg = s.cfg := rfl

@[simp] theorem loadResponse_x (body : List Byte) (s : State) : (loadResponse body s).x = s.x := rfl

@[simp] theorem loadResponse_buf (body : List Byte) (s : State) : (loadResponse body s).buf = s.buf := rfl

@[simp] theorem loadResponse_rxIndex (body : List Byte) (s : State) : (loadResponse body s).rxIndex = s.rxIndex := rfl

@[simp] theorem loadResponse_lastRxTime (body : List Byte) (s : State) :
    (loadResponse body s).lastRxTime = s.lastRxTime := rfl

@[simp] theorem loadResponse_frameReady (body : List Byte) (s : State) :
    (loadResponse body s).frameReady = s.frameReady := rfl

@[simp] theorem loadResponse_resp (body : List Byte) (s : State) :
    (loadResponse body s).resp = s.resp.writeList 0 (body ++ trailer body) := rfl

@[simp] theorem loadResponse_respLen (body : List Byte) (s : State) :
    (loadResponse body s).respLen = (body ++ trailer body).length := rfl

@[simp] theorem loadResponse_txIdx (body : List Byte) (s : State) : (loadResponse body s).txIdx = s.txIdx := rfl

@[simp] theorem loadResponse_slaveAddr (body : List Byte) (s : State) :
    (loadResponse body s).slaveAddr = s.slaveAddr := rfl

@[simp] theorem loadResponse_now (body : List Byte) (s : State) : (loadResponse body s).now = s.now := rfl

@[simp] theorem loadResponse_de (body : List Byte) (s : State) : (loadResponse body s).de = s.de := rfl

@[simp] theorem loadResponse_phase (body : List Byte) (s : State) : (loadResponse body s).phase = s.phase := rfl

@[simp] theorem loadResponse_txFault (body : List Byte) (s : State) : (loadResponse body s).txFault = s.txFault := rfl

@[simp] theorem loadResponse_events (body : List Byte) (s : State) : (loadResponse body s).events = s.events := rfl

@[simp] theorem loadResponse_delayed (body : List Byte) (s : State) : (loadResponse body s).delayed = s.delayed := rfl

@[simp] theorem loadResponse_trace (body : List Byte) (s : State) : (loadResponse body s).trace = s.trace := rfl

@[simp] theorem loadResponse_reply (body : List Byte) (s : State) : (loadResponse body s).reply = s.reply := rfl

@[simp] theorem loadResponse_orderCount (body : List Byte) (s : State) :
    (loadResponse body s).orderCount = s.orderCount := rfl

@[simp] theorem clear_cfg (s : State) : (clear s).cfg = s.cfg := rfl

@[simp] theorem clear_x (s : State) : (clear s).x = s.x := rfl

@[simp] theorem clear_buf (s : State) : (clear s).buf = s.buf := rfl

@[simp] theorem clear_rxIndex (s : State) : (clear s).rxIndex = 0 := rfl

@[simp] theorem clear_lastRxTime (s : State) : (clear s).lastRxTime = s.lastRxTime := rfl

@[simp] theorem clear_frameReady (s : State) : (clear s).frameReady = false := rfl

@[simp] theorem clear_resp (s : State) : (clear s).resp = s.resp := rfl

@[simp] theorem clear_respLen (s : State) : (clear s).respLen = s.respLen := rfl

@[simp] theorem clear_txIdx (s : State) : (clear s).txIdx = s.txIdx := rfl

@[simp] theorem clear_slaveAddr (s : State) : (clear s).slaveAddr = s.slaveAddr := rfl

@[simp] theorem clear_now (s : State) : (clear s).now = s.now := rfl

@[simp] theorem clear_de (s : State) : (clear s).de = s.de := rfl

@[simp] theorem clear_phase (s : State) : (clear s).phase = .idle := rfl

@[simp] theorem clear_txFault (s : State) : (clear s).txFault = s.txFault := rfl

@[simp] theorem clear_events (s : State) : (clear s).events = s.events := rfl

@[simp] theorem clear_delayed (s : State) : (clear s).delayed = s.delayed := rfl

@[simp] theorem clear_trace (s : State) : (clear s).trace = s.trace := rfl

@[simp] theorem clear_reply (s : State) : (clear s).reply = s.reply := rfl

@[simp] theorem clear_orderCount (s : State) : (clear s).orderCount = s.orderCount := rfl

@[simp] theorem noResponse_cfg (s : State) : (noResponse s).cfg = s.cfg := rfl

@[simp] theorem noResponse_x (s : State) : (noResponse s).x = s.x := rfl

@[simp] theorem noResponse_buf (s : State) : (noResponse s).buf = s.buf := rfl

@[simp] theorem noResponse_rxIndex (s : State) : (noResponse s).rxIndex = s.rxIndex := rfl

@[simp] theorem noResponse_lastRxTime (s : State) : (noResponse s).lastRxTime = s.lastRxTime := rfl

@[simp] theorem noResponse_frameReady (s : State) : (noResponse s).frameReady = s.frameReady := rfl

@[simp] theorem noResponse_resp (s : State) : (noResponse s).resp = s.resp := rfl

@[simp] theorem noResponse_respLen (s : State) : (noResponse s).respLen = 0 := rfl

@[simp] theorem noResponse_txIdx (s : State) : (noResponse s).txIdx = s.txIdx := rfl

@[simp] theorem noResponse_slaveAddr (s : State) : (noResponse s).slaveAddr = s.slaveAddr := rfl

@[simp] theorem noResponse_now (s : State) : (noResponse s).now = s.now := rfl

@[simp] theorem noResponse_de (s : State) : (noResponse s).de = s.de := rfl

@[simp] theorem noResponse_phase (s : State) : (noResponse s).phase = s.phase := rfl

@[simp] theorem noResponse_txFault (s : State) : (noResponse s).txFault = s.txFault := rfl

@[simp] theorem noResponse_events (s : State) : (noResponse s).events = s.events := rfl

@[simp] theorem noResponse_delayed (s : State) : (noResponse s).delayed = s.delayed := rfl

@[simp] theorem noResponse_trace (s : State) : (noResponse s).trace = s.trace := rfl

@[simp] theorem noResponse_reply (s : State) : (noResponse s).reply = s.reply := rfl

@[simp] theorem noResponse_orderCount (s : State) : (noResponse s).orderCount = s.orderCount := rfl

@[simp] theorem advance_cfg (s : State) : (advance s).cfg = s.cfg := rfl

@[simp] theorem advance_x (s : State) : (advance s).x = s.x := rfl

@[simp] theorem advance_buf (s : State) : (advance s).buf = s.buf := rfl

@[simp] theorem advance_rxIndex (s : State) : (advance s).rxIndex = s.rxIndex := rfl

@[simp] theorem advance_lastRxTime (s : State) : (advance s).lastRxTime = s.lastRxTime := rfl

@[simp] theorem advance_frameReady (s : State) : (advance s).frameReady = s.frameReady := rfl

@[simp] theorem advance_resp (s : State) : (advance s).resp = s.resp := rfl

@[simp] theorem advance_respLen (s : State) : (advance s).respLen = s.respLen := rfl

@[simp] theorem advance_txIdx (s : State) : (advance s).txIdx = s.txIdx := rfl

@[simp] theorem advance_slaveAddr (s : State) : (advance s).slaveAddr = s.slaveAddr := rfl

@[simp] theorem advance_now (s : State) : (advance s).now = s.now + 1#32 := rfl

@[simp] theorem advance_de (s : State) : (advance s).de = s.de := rfl

@[simp] theorem advance_phase (s : State) : (advance s).phase = s.phase := rfl

@[simp] theorem advance_txFault (s : State) : (advance s).txFault = s.txFault := rfl

@[simp] theorem advance_events (s : State) : (advance s).events = s.events := rfl

@[simp] theorem advance_delayed (s : State) : (advance s).delayed = s.delayed := rfl

@[simp] theorem advance_trace (s : State) : (advance s).trace = s.trace := rfl

@[simp] theorem advance_reply (s : State) : (advance s).reply = s.reply := rfl

@[simp] theorem advance_orderCount (s : State) : (advance s).orderCount = s.orderCount := rfl

@[simp] theorem notifyHook_cfg (r v : Half) (s : State) : (notifyHook r v s).cfg = s.cfg := by
  unfold notifyHook
  split <;> rfl

@[simp] theorem notifyHook_x (r v : Half) (s : State) : (notifyHook r v s).x = s.x := by
  unfold notifyHook
  split <;> rfl

@[simp] theorem notifyHook_buf (r v : Half) (s : State) : (notifyHook r v s).buf = s.buf := by
  unfold notifyHook
  split <;> rfl

@[simp] theorem notifyHook_rxIndex (r v : Half) (s : State) : (notifyHook r v s).rxIndex = s.rxIndex := by
  unfold notifyHook
  split <;> rfl

@[simp] theorem notifyHook_lastRxTime (r v : Half) (s : State) : (notifyHook r v s).lastRxTime = s.lastRxTime := by
  unfold notifyHook
  split <;> rfl

@[simp] theorem notifyHook_frameReady (r v : Half) (s : State) : (notifyHook r v s).frameReady = s.frameReady := by
  unfold notifyHook
  split <;> rfl

@[simp] theorem notifyHook_resp (r v : Half) (s : State) : (notifyHook r v s).resp = s.resp := by
  unfold notifyHook
  split <;> rfl

@[simp] theorem notifyHook_respLen (r v : Half) (s : State) : (notifyHook r v s).respLen = s.respLen := by
  unfold notifyHook
  split <;> rfl

@[simp] theorem notifyHook_txIdx (r v : Half) (s : State) : (notifyHook r v s).txIdx = s.txIdx := by
  unfold notifyHook
  split <;> rfl

@[simp] theorem notifyHook_slaveAddr (r v : Half) (s : State) : (notifyHook r v s).slaveAddr = s.slaveAddr := by
  unfold notifyHook
  split <;> rfl

@[simp] theorem notifyHook_now (r v : Half) (s : State) : (notifyHook r v s).now = s.now := by
  unfold notifyHook
  split <;> rfl

@[simp] theorem notifyHook_de (r v : Half) (s : State) : (notifyHook r v s).de = s.de := by
  unfold notifyHook
  split <;> rfl

@[simp] theorem notifyHook_phase (r v : Half) (s : State) : (notifyHook r v s).phase = s.phase := by
  unfold notifyHook
  split <;> rfl

@[simp] theorem notifyHook_txFault (r v : Half) (s : State) : (notifyHook r v s).txFault = s.txFault := by
  unfold notifyHook
  split <;> rfl

@[simp] theorem notifyHook_events (r v : Half) (s : State) : (notifyHook r v s).events = s.events := by
  unfold notifyHook
  split <;> rfl

@[simp] theorem notifyHook_delayed (r v : Half) (s : State) : (notifyHook r v s).delayed = s.delayed := by
  unfold notifyHook
  split <;> rfl

@[simp] theorem notifyHook_reply (r v : Half) (s : State) : (notifyHook r v s).reply = s.reply := by
  unfold notifyHook
  split <;> rfl

@[simp] theorem notifyHook_orderCount (r v : Half) (s : State) : (notifyHook r v s).orderCount = s.orderCount := by
  unfold notifyHook
  split <;> rfl

@[simp] theorem suppressBroadcast_cfg (a : Byte) (s : State) : (suppressBroadcast a s).cfg = s.cfg := by
  unfold suppressBroadcast
  split <;> rfl

@[simp] theorem suppressBroadcast_x (a : Byte) (s : State) : (suppressBroadcast a s).x = s.x := by
  unfold suppressBroadcast
  split <;> rfl

@[simp] theorem suppressBroadcast_buf (a : Byte) (s : State) : (suppressBroadcast a s).buf = s.buf := by
  unfold suppressBroadcast
  split <;> rfl

@[simp] theorem suppressBroadcast_rxIndex (a : Byte) (s : State) : (suppressBroadcast a s).rxIndex = s.rxIndex := by
  unfold suppressBroadcast
  split <;> rfl

@[simp] theorem suppressBroadcast_lastRxTime (a : Byte) (s : State) :
    (suppressBroadcast a s).lastRxTime = s.lastRxTime := by
  unfold suppressBroadcast
  split <;> rfl

@[simp] theorem suppressBroadcast_frameReady (a : Byte) (s : State) :
    (suppressBroadcast a s).frameReady = s.frameReady := by
  unfold suppressBroadcast
  split <;> rfl

@[simp] theorem suppressBroadcast_resp (a : Byte) (s : State) : (suppressBroadcast a s).resp = s.resp := by
  unfold suppressBroadcast
  split <;> rfl

@[simp] theorem suppressBroadcast_respLen (a : Byte) (s : State) :
    (suppressBroadcast a s).respLen = if a = 0x00#8 then 0 else s.respLen := by
  unfold suppressBroadcast
  split <;> simp_all [noResponse]

@[simp] theorem suppressBroadcast_txIdx (a : Byte) (s : State) : (suppressBroadcast a s).txIdx = s.txIdx := by
  unfold suppressBroadcast
  split <;> rfl

@[simp] theorem suppressBroadcast_slaveAddr (a : Byte) (s : State) :
    (suppressBroadcast a s).slaveAddr = s.slaveAddr := by
  unfold suppressBroadcast
  split <;> rfl

@[simp] theorem suppressBroadcast_now (a : Byte) (s : State) : (suppressBroadcast a s).now = s.now := by
  unfold suppressBroadcast
  split <;> rfl

@[simp] theorem suppressBroadcast_de (a : Byte) (s : State) : (suppressBroadcast a s).de = s.de := by
  unfold suppressBroadcast
  split <;> rfl

@[simp] theorem suppressBroadcast_phase (a : Byte) (s : State) : (suppressBroadcast a s).phase = s.phase := by
  unfold suppressBroadcast
  split <;> rfl

@[simp] theorem suppressBroadcast_txFault (a : Byte) (s : State) : (suppressBroadcast a s).txFault = s.txFault := by
  unfold suppressBroadcast
  split <;> rfl

@[simp] theorem suppressBroadcast_events (a : Byte) (s : State) : (suppressBroadcast a s).events = s.events := by
  unfold suppressBroadcast
  split <;> rfl

@[simp] theorem suppressBroadcast_delayed (a : Byte) (s : State) : (suppressBroadcast a s).delayed = s.delayed := by
  unfold suppressBroadcast
  split <;> rfl

@[simp] theorem suppressBroadcast_trace (a : Byte) (s : State) : (suppressBroadcast a s).trace = s.trace := by
  unfold suppressBroadcast
  split <;> rfl

@[simp] theorem suppressBroadcast_reply (a : Byte) (s : State) : (suppressBroadcast a s).reply = s.reply := by
  unfold suppressBroadcast
  split <;> rfl

@[simp] theorem suppressBroadcast_orderCount (a : Byte) (s : State) :
    (suppressBroadcast a s).orderCount = s.orderCount := by
  unfold suppressBroadcast
  split <;> rfl

@[simp] theorem endProcess_cfg (s : State) : (endProcess s).cfg = s.cfg := by
  unfold endProcess
  split <;> rfl

@[simp] theorem endProcess_x (s : State) : (endProcess s).x = s.x := by
  unfold endProcess
  split <;> rfl

@[simp] theorem endProcess_buf (s : State) : (endProcess s).buf = s.buf := by
  unfold endProcess
  split <;> rfl

@[simp] theorem endProcess_rxIndex (s : State) : (endProcess s).rxIndex = s.rxIndex := by
  unfold endProcess
  split <;> rfl

@[simp] theorem endProcess_lastRxTime (s : State) : (endProcess s).lastRxTime = s.lastRxTime := by
  unfold endProcess
  split <;> rfl

@[simp] theorem endProcess_frameReady (s : State) : (endProcess s).frameReady = s.frameReady := by
  unfold endProcess
  split <;> rfl

@[simp] theorem endProcess_resp (s : State) : (endProcess s).resp = s.resp := by
  unfold endProcess
  split <;> rfl

@[simp] theorem endProcess_respLen (s : State) : (endProcess s).respLen = s.respLen := by
  unfold endProcess
  split <;> rfl

@[simp] theorem endProcess_txIdx (s : State) : (endProcess s).txIdx = if s.respLen = 0 then s.txIdx else 0 := by
  unfold endProcess
  split <;> simp_all

@[simp] theorem endProcess_slaveAddr (s : State) : (endProcess s).slaveAddr = s.slaveAddr := by
  unfold endProcess
  split <;> rfl

@[simp] theorem endProcess_now (s : State) : (endProcess s).now = s.now := by
  unfold endProcess
  split <;> rfl

@[simp] theorem endProcess_de (s : State) : (endProcess s).de = s.de := by
  unfold endProcess
  split <;> rfl

@[simp] theorem endProcess_phase (s : State) : (endProcess s).phase = if s.respLen = 0 then .done else .guardPre := by
  unfold endProcess
  split <;> simp_all

@[simp] theorem endProcess_txFault (s : State) : (endProcess s).txFault = s.txFault := by
  unfold endProcess
  split <;> rfl

@[simp] theorem endProcess_events (s : State) : (endProcess s).events = s.events := by
  unfold endProcess
  split <;> rfl

@[simp] theorem endProcess_delayed (s : State) : (endProcess s).delayed = s.delayed := by
  unfold endProcess
  split <;> rfl

@[simp] theorem endProcess_trace (s : State) : (endProcess s).trace = s.trace := by
  unfold endProcess
  split <;> rfl

@[simp] theorem endProcess_reply (s : State) : (endProcess s).reply = s.reply := by
  unfold endProcess
  split <;> rfl

@[simp] theorem endProcess_orderCount (s : State) : (endProcess s).orderCount = s.orderCount := by
  unfold endProcess
  split <;> rfl

@[simp] theorem storeByte_cfg (b : Byte) (s : State) : (storeByte b s).cfg = s.cfg := by
  unfold storeByte
  split <;> rfl

@[simp] theorem storeByte_x (b : Byte) (s : State) : (storeByte b s).x = s.x := by
  unfold storeByte
  split <;> rfl

@[simp] theorem storeByte_lastRxTime (b : Byte) (s : State) : (storeByte b s).lastRxTime = s.lastRxTime := by
  unfold storeByte
  split <;> rfl

@[simp] theorem storeByte_frameReady (b : Byte) (s : State) : (storeByte b s).frameReady = s.frameReady := by
  unfold storeByte
  split <;> rfl

@[simp] theorem storeByte_resp (b : Byte) (s : State) : (storeByte b s).resp = s.resp := by
  unfold storeByte
  split <;> rfl

@[simp] theorem storeByte_respLen (b : Byte) (s : State) : (storeByte b s).respLen = s.respLen := by
  unfold storeByte
  split <;> rfl

@[simp] theorem storeByte_txIdx (b : Byte) (s : State) : (storeByte b s).txIdx = s.txIdx := by
  unfold storeByte
  split <;> rfl

@[simp] theorem storeByte_slaveAddr (b : Byte) (s : State) : (storeByte b s).slaveAddr = s.slaveAddr := by
  unfold storeByte
  split <;> rfl

@[simp] theorem storeByte_now (b : Byte) (s : State) : (storeByte b s).now = s.now := by
  unfold storeByte
  split <;> rfl

@[simp] theorem storeByte_de (b : Byte) (s : State) : (storeByte b s).de = s.de := by
  unfold storeByte
  split <;> rfl

@[simp] theorem storeByte_phase (b : Byte) (s : State) : (storeByte b s).phase = s.phase := by
  unfold storeByte
  split <;> rfl

@[simp] theorem storeByte_txFault (b : Byte) (s : State) : (storeByte b s).txFault = s.txFault := by
  unfold storeByte
  split <;> rfl

@[simp] theorem storeByte_events (b : Byte) (s : State) : (storeByte b s).events = s.events := by
  unfold storeByte
  split <;> rfl

@[simp] theorem storeByte_delayed (b : Byte) (s : State) : (storeByte b s).delayed = s.delayed := by
  unfold storeByte
  split <;> rfl

@[simp] theorem storeByte_trace (b : Byte) (s : State) : (storeByte b s).trace = s.trace := by
  unfold storeByte
  split <;> rfl

@[simp] theorem storeByte_reply (b : Byte) (s : State) : (storeByte b s).reply = s.reply := by
  unfold storeByte
  split <;> rfl

@[simp] theorem storeByte_orderCount (b : Byte) (s : State) : (storeByte b s).orderCount = s.orderCount := by
  unfold storeByte
  split <;> rfl

@[simp] theorem delayAccess_cfg (a : Access) (s : State) : (delayAccess a s).cfg = s.cfg := rfl

@[simp] theorem delayAccess_x (a : Access) (s : State) : (delayAccess a s).x = s.x := rfl

@[simp] theorem delayAccess_buf (a : Access) (s : State) : (delayAccess a s).buf = s.buf := rfl

@[simp] theorem delayAccess_rxIndex (a : Access) (s : State) : (delayAccess a s).rxIndex = s.rxIndex := rfl

@[simp] theorem delayAccess_lastRxTime (a : Access) (s : State) : (delayAccess a s).lastRxTime = s.lastRxTime := rfl

@[simp] theorem delayAccess_frameReady (a : Access) (s : State) : (delayAccess a s).frameReady = s.frameReady := rfl

@[simp] theorem delayAccess_resp (a : Access) (s : State) : (delayAccess a s).resp = s.resp := rfl

@[simp] theorem delayAccess_respLen (a : Access) (s : State) : (delayAccess a s).respLen = s.respLen := rfl

@[simp] theorem delayAccess_txIdx (a : Access) (s : State) : (delayAccess a s).txIdx = s.txIdx := rfl

@[simp] theorem delayAccess_slaveAddr (a : Access) (s : State) : (delayAccess a s).slaveAddr = s.slaveAddr := rfl

@[simp] theorem delayAccess_now (a : Access) (s : State) : (delayAccess a s).now = s.now := rfl

@[simp] theorem delayAccess_de (a : Access) (s : State) : (delayAccess a s).de = s.de := rfl

@[simp] theorem delayAccess_phase (a : Access) (s : State) : (delayAccess a s).phase = s.phase := rfl

@[simp] theorem delayAccess_txFault (a : Access) (s : State) : (delayAccess a s).txFault = s.txFault := rfl

@[simp] theorem delayAccess_events (a : Access) (s : State) : (delayAccess a s).events = s.events := rfl

@[simp] theorem delayAccess_delayed (a : Access) (s : State) : (delayAccess a s).delayed = s.delayed ++ [a] := rfl

@[simp] theorem delayAccess_trace (a : Access) (s : State) : (delayAccess a s).trace = s.trace := rfl

@[simp] theorem delayAccess_reply (a : Access) (s : State) : (delayAccess a s).reply = s.reply := rfl

@[simp] theorem delayAccess_orderCount (a : Access) (s : State) : (delayAccess a s).orderCount = s.orderCount := rfl

@[simp] theorem releaseDelayed_cfg (s : State) : (releaseDelayed s).cfg = s.cfg := rfl

@[simp] theorem releaseDelayed_x (s : State) : (releaseDelayed s).x = s.x := rfl

@[simp] theorem releaseDelayed_buf (s : State) : (releaseDelayed s).buf = s.buf := rfl

@[simp] theorem releaseDelayed_rxIndex (s : State) : (releaseDelayed s).rxIndex = s.rxIndex := rfl

@[simp] theorem releaseDelayed_lastRxTime (s : State) : (releaseDelayed s).lastRxTime = s.lastRxTime := rfl

@[simp] theorem releaseDelayed_frameReady (s : State) : (releaseDelayed s).frameReady = s.frameReady := rfl

@[simp] theorem releaseDelayed_resp (s : State) : (releaseDelayed s).resp = s.resp := rfl

@[simp] theorem releaseDelayed_respLen (s : State) : (releaseDelayed s).respLen = s.respLen := rfl

@[simp] theorem releaseDelayed_txIdx (s : State) : (releaseDelayed s).txIdx = s.txIdx := rfl

@[simp] theorem releaseDelayed_slaveAddr (s : State) : (releaseDelayed s).slaveAddr = s.slaveAddr := rfl

@[simp] theorem releaseDelayed_now (s : State) : (releaseDelayed s).now = s.now := rfl

@[simp] theorem releaseDelayed_de (s : State) : (releaseDelayed s).de = s.de := rfl

@[simp] theorem releaseDelayed_phase (s : State) : (releaseDelayed s).phase = s.phase := rfl

@[simp] theorem releaseDelayed_txFault (s : State) : (releaseDelayed s).txFault = s.txFault := rfl

@[simp] theorem releaseDelayed_events (s : State) :
    (releaseDelayed s).events = s.delayed.map Access.event ++ s.events := rfl

@[simp] theorem releaseDelayed_delayed (s : State) : (releaseDelayed s).delayed = [] := rfl

@[simp] theorem releaseDelayed_trace (s : State) : (releaseDelayed s).trace = s.trace := rfl

@[simp] theorem releaseDelayed_reply (s : State) : (releaseDelayed s).reply = s.reply := rfl

@[simp] theorem releaseDelayed_orderCount (s : State) : (releaseDelayed s).orderCount = s.orderCount := rfl

end Sys2Proof.Machine
end

