-- ==== Sys2Proof/Laws/Ops.lean ====
section
/-! SUPPORT. Everything the shared operations of the handlers do, and every instruction in terms of them. -/

namespace Sys2Proof.Machine

/-! ### responses -/

/-- A stored response reads back as its body and its CRC. -/
theorem respBytes_loadResponse {s : State} (h : s.resp.wf = true) (body : List Byte) :
    respBytes (loadResponse body s) = body ++ trailer body := Memory.readList_writeList h 0 _

/-- A stored response changes only the cells it covers. -/
theorem read_loadResponse {s : State} (h : s.resp.wf = true) (body : List Byte) (a : Nat) :
    (loadResponse body s).resp.read a =
      if a < body.length + 2 then (body ++ trailer body).getD a 0 else s.resp.read a := by
  rw [loadResponse_resp, Memory.read_writeList h]
  simp [Memory.blank]

/-- What the end of the process step makes of a built response: it is sent, or suppressed on broadcast. -/
theorem finishProcess_loadResponse (addr : Byte) (body : List Byte) (s : State) :
    finishProcess addr (loadResponse body s) =
      if addr = 0x00#8 then { loadResponse body s with respLen := 0, phase := .done }
      else { loadResponse body s with txIdx := 0, phase := .guardPre } := by
  unfold finishProcess suppressBroadcast endProcess
  by_cases h : addr = 0x00#8
  · rw [if_pos (show addr = Config.broadcast from h), if_pos h]; rfl
  · rw [if_neg (show ¬ addr = Config.broadcast from h), if_neg h, if_neg (by simp)]

/-- Everything the end of the process step does with a response to be sent. -/
theorem answers_finish {s : State} (h : s.resp.wf = true) {addr : Byte} (ha : addr ≠ 0x00#8)
    (body : List Byte) :
    Answers s (finishProcess addr (loadResponse body s)) (withCrc body) := by
  rw [withCrc_eq, finishProcess_loadResponse, if_neg ha]
  refine ⟨respBytes_loadResponse h body, ?_, rfl⟩
  intro a hle
  rw [List.length_append, length_trailer] at hle
  exact (read_loadResponse h body a).trans (if_neg (by omega))

/-- Everything the end of the process step does with a response to a broadcast. -/
theorem silent_finish {s : State} (h : s.resp.wf = true) {addr : Byte} (ha : addr = 0x00#8)
    (body : List Byte) :
    StaysSilent s (finishProcess addr (loadResponse body s)) (body.length + 2) := by
  rw [finishProcess_loadResponse, if_pos ha]
  refine ⟨?_, rfl⟩
  intro a hle
  exact (read_loadResponse h body a).trans (if_neg (by omega))

/-! ### what a request does before the end of the process step -/

/-- The response a request builds, without its CRC. -/
def requestBody (i : Instr) (s : State) : List Byte :=
  match i with
  | .rhr _ start qty _ =>
    if quantityLegal qty then
      if rangeLegal s.cfg start qty then
        s.slaveAddr :: 0x03#8 :: lo8 (2#16 * qty) :: (registerValues s start qty).flatMap beBytes
      else [s.slaveAddr, 0x83#8, 0x02#8]
    else [s.slaveAddr, 0x83#8, 0x03#8]
  | .wsr _ reg value _ =>
    if addressLegal s.cfg reg.toNat then [s.slaveAddr, 0x06#8] ++ beBytes reg ++ beBytes value
    else [s.slaveAddr, 0x86#8, 0x02#8]
  | .illfn80 a f p => [s.slaveAddr, functionByte (.illfn80 a f p) ||| 0x80#8, 0x01#8]
  | .illfn40 a f p => [s.slaveAddr, functionByte (.illfn40 a f p) ||| 0x80#8, 0x01#8]
  | .illfn20 a f p => [s.slaveAddr, functionByte (.illfn20 a f p) ||| 0x80#8, 0x01#8]
  | .illfn10 a f p => [s.slaveAddr, functionByte (.illfn10 a f p) ||| 0x80#8, 0x01#8]
  | .illfn08 a f p => [s.slaveAddr, functionByte (.illfn08 a f p) ||| 0x80#8, 0x01#8]
  | .illfn00 a f p => [s.slaveAddr, functionByte (.illfn00 a f p) ||| 0x80#8, 0x01#8]
  | .illfn02 a p => [s.slaveAddr, functionByte (.illfn02 a p) ||| 0x80#8, 0x01#8]
  | .illfn07 a p => [s.slaveAddr, functionByte (.illfn07 a p) ||| 0x80#8, 0x01#8]

/-- What a request does to the store and the trace before its response is built. -/
def requestEffect (i : Instr) (s : State) : State :=
  match i with
  | .wsr _ reg value _ =>
    if addressLegal s.cfg reg.toNat then notifyHook reg value (writeRegister reg.toNat value s) else s
  | .rhr _ _ _ _ => s
  | .illfn80 _ _ _ => s
  | .illfn40 _ _ _ => s
  | .illfn20 _ _ _ => s
  | .illfn10 _ _ _ => s
  | .illfn08 _ _ _ => s
  | .illfn00 _ _ _ => s
  | .illfn02 _ _ => s
  | .illfn07 _ _ => s

/-- Every instruction is: its effect, its response, the end of the process step. -/
theorem exec_eq (i : Instr) (s : State) :
    exec i s = .next (finishProcess (addressByte i) (loadResponse (requestBody i s) (requestEffect i s))) := by
  cases i with
  | rhr a start qty e =>
    simp only [exec, execRhr, handleRead, requestBody, requestEffect, addressByte, buildReadResponse, raiseException,
      exceptionByte]
    congr 2
    split
    · split <;> rfl
    · rfl
  | wsr a reg value e =>
    simp only [exec, execWsr, handleWrite, requestBody, requestEffect, addressByte, buildWriteResponse, raiseException,
      exceptionByte]
    congr 2
    split
    · simp
    · rfl
  | _ => rfl

/-- A request touches no field but the store and the trace before its response is built. -/
theorem requestEffect_fields (i : Instr) (s : State) :
    requestEffect i s = { s with x := (requestEffect i s).x, trace := (requestEffect i s).trace } := by
  cases i <;> simp only [requestEffect]
  split
  · unfold notifyHook; split <;> rfl
  · rfl

/-- R172 in integers. -/
theorem quantityLegal_iff (q : Half) : quantityLegal q = true ↔ 1 ≤ q.toNat ∧ q.toNat ≤ 125 := by
  have : q ≠ 0#16 ↔ 1 ≤ q.toNat := by
    rw [Ne, ← BitVec.toNat_inj]; simp; omega
  rw [quantityLegal, Bool.and_eq_true, decide_eq_true_eq, decide_eq_true_eq, this]
  rfl

theorem length_flatMap_beBytes (vs : List Half) : (vs.flatMap beBytes).length = 2 * vs.length := by
  induction vs with
  | nil => rfl
  | cons v vs ih => rw [List.flatMap_cons, List.length_append, ih, List.length_cons]; simp [beBytes]; omega

/-- The length of every response (R176, R185, R228). -/
theorem length_requestBody (i : Instr) (s : State) : (requestBody i s).length + 2 = responseLength s.cfg i := by
  cases i with
  | rhr a start qty e =>
    simp only [requestBody, responseLength]
    by_cases hq : quantityLegal qty = true
    · have hq' := (quantityLegal_iff qty).mp hq
      by_cases hr : rangeLegal s.cfg start qty = true
      · rw [if_pos hq, if_pos hr, if_pos ⟨hq'.1, hq'.2, by simpa [rangeLegal] using hr⟩]
        rw [List.length_cons, List.length_cons, List.length_cons, length_flatMap_beBytes, registerValues,
          Memory.length_readList]
        omega
      · rw [if_pos hq, if_neg hr, if_neg (fun h => hr (by simpa [rangeLegal] using h.2.2))]
        rfl
    · rw [if_neg hq, if_neg (fun h => hq ((quantityLegal_iff qty).mpr ⟨h.1, h.2.1⟩))]
      rfl
  | wsr a reg value e =>
    simp only [requestBody, responseLength]
    by_cases h : reg.toNat < s.cfg.regCount
    · rw [if_pos (by simpa [addressLegal] using h), if_pos h]; rfl
    · rw [if_neg (by simpa [addressLegal] using h), if_neg h]; rfl
  | _ => rfl

/-- The register bytes of a read response in integers. -/
theorem flatMap_readList (m : Memory 16) (a n : Nat) :
    (m.readList a n).flatMap beBytes = (List.range n).flatMap fun k =>
      [BitVec.ofNat 8 ((m.read (a + k)).toNat / 256), BitVec.ofNat 8 ((m.read (a + k)).toNat % 256)] := by
  induction n with
  | zero => rfl
  | succ n ih =>
    rw [Memory.readList_succ, List.range_succ, List.flatMap_append, List.flatMap_append, ih]
    simp [beBytes, hi8_eq, lo8_eq]

/-- The byte count of a read response in integers (R88). -/
theorem lo8_double (q : Half) : lo8 (2#16 * q) = BitVec.ofNat 8 (2 * q.toNat) := by
  apply BitVec.eq_of_toNat_eq
  rw [lo8_toNat]
  simp [BitVec.toNat_mul]
  try omega

/-- The hook changes the trace and nothing else (R186). -/
theorem notifyHook_eq (r v : Half) (s : State) :
    notifyHook r v s = { s with trace := s.trace ++ hookTrace s.cfg r v } := by
  unfold notifyHook hookTrace
  cases s.cfg.hookPresent <;> simp [emit]

/-- Only a write to an existing register has an effect before its response. -/
theorem requestEffect_of_not_writes {i : Instr} {s : State} (h : writesRegister s.cfg i = false) :
    requestEffect i s = s := by
  cases i with
  | wsr a reg value e =>
    have : ¬ addressLegal s.cfg reg.toNat = true := by simpa [addressLegal, writesRegister] using h
    exact if_neg this
  | _ => rfl

/-- A response has 5 to 255 bytes (R31). -/
theorem responseLength_bounds (cfg : Config) (i : Instr) :
    5 ≤ responseLength cfg i ∧ responseLength cfg i ≤ 255 := by
  cases i <;> simp only [responseLength] <;> first | omega | (split <;> omega)

end Sys2Proof.Machine
end

