-- ==== Sys2Proof/Laws/PerInstr.lean ====
section
/-! SUPPORT. One lemma per instruction: its function byte is selected by its row of the opcode table (R90). -/

namespace Sys2Proof.Laws.RowMatch

/-- The instruction's row is a row of the table, its function byte matches the row, and its frame carries that byte. -/
def Statement (i : Instr) : Prop :=
  rowOf i ∈ opcodeRows ∧ rowSelects (rowOf i) (functionByte i) = true ∧ (encode i).getD 1 0 = functionByte i

theorem rhr (addr : Byte) (start qty : Half) (extra : List Byte) : Statement (.rhr addr start qty extra) :=
  ⟨by simp [rowOf, opcodeRows], (by decide : rowSelects ⟨0x03#8, 0xFF#8⟩ 0x03#8 = true), rfl⟩

theorem wsr (addr : Byte) (reg value : Half) (extra : List Byte) : Statement (.wsr addr reg value extra) :=
  ⟨by simp [rowOf, opcodeRows], (by decide : rowSelects ⟨0x06#8, 0xFF#8⟩ 0x06#8 = true), rfl⟩

theorem illfn80 (addr : Byte) (f : BitVec 7) (payload : List Byte) : Statement (.illfn80 addr f payload) :=
  ⟨by simp [rowOf, opcodeRows],
    (by decide : ∀ g : BitVec 7, rowSelects ⟨0x80#8, 0x80#8⟩ (1#1 ++ g) = true) f, rfl⟩

theorem illfn40 (addr : Byte) (f : BitVec 6) (payload : List Byte) : Statement (.illfn40 addr f payload) :=
  ⟨by simp [rowOf, opcodeRows],
    (by decide : ∀ g : BitVec 6, rowSelects ⟨0x40#8, 0xC0#8⟩ (1#2 ++ g) = true) f, rfl⟩

theorem illfn20 (addr : Byte) (f : BitVec 5) (payload : List Byte) : Statement (.illfn20 addr f payload) :=
  ⟨by simp [rowOf, opcodeRows],
    (by decide : ∀ g : BitVec 5, rowSelects ⟨0x20#8, 0xE0#8⟩ (1#3 ++ g) = true) f, rfl⟩

theorem illfn10 (addr : Byte) (f : BitVec 4) (payload : List Byte) : Statement (.illfn10 addr f payload) :=
  ⟨by simp [rowOf, opcodeRows],
    (by decide : ∀ g : BitVec 4, rowSelects ⟨0x10#8, 0xF0#8⟩ (1#4 ++ g) = true) f, rfl⟩

theorem illfn08 (addr : Byte) (f : BitVec 3) (payload : List Byte) : Statement (.illfn08 addr f payload) :=
  ⟨by simp [rowOf, opcodeRows],
    (by decide : ∀ g : BitVec 3, rowSelects ⟨0x08#8, 0xF8#8⟩ (1#5 ++ g) = true) f, rfl⟩

theorem illfn00 (addr : Byte) (f : BitVec 2) (payload : List Byte) : Statement (.illfn00 addr f payload) :=
  ⟨by simp [rowOf, opcodeRows],
    (by decide : ∀ g : BitVec 2, rowSelects ⟨0x00#8, 0xFA#8⟩ (functionByte (.illfn00 0#8 g [])) = true) f, rfl⟩

theorem illfn02 (addr : Byte) (payload : List Byte) : Statement (.illfn02 addr payload) :=
  ⟨by simp [rowOf, opcodeRows], (by decide : rowSelects ⟨0x02#8, 0xFF#8⟩ 0x02#8 = true), rfl⟩

theorem illfn07 (addr : Byte) (payload : List Byte) : Statement (.illfn07 addr payload) :=
  ⟨by simp [rowOf, opcodeRows], (by decide : rowSelects ⟨0x07#8, 0xFF#8⟩ 0x07#8 = true), rfl⟩

end Sys2Proof.Laws.RowMatch
end

