-- ==== Sys2Proof/Laws/Step.lean ====
section
/-! SUPPORT. One step and a run of steps, the gates of the process step, the tick. -/

namespace Sys2Proof.Machine

/-- The step of the event at the head of the schedule. -/
theorem step_event {s : State} {e : Event} {rest : List Event} (hl : s.cfg.legal = true) (he : s.events = e :: rest) :
    step s = runEvent e { s with events := rest } := by
  rw [step, if_pos hl, runNext, he]

/-- With nothing scheduled the main loop moves. -/
theorem step_idle {s : State} (hl : s.cfg.legal = true) (he : s.events = []) : step s = runMain s := by
  rw [step, if_pos hl, runNext, he]

/-- Every step is the step of its `nextEvent`, or none. -/
theorem step_cases {s t : State} (h : step s = .next t) :
    s.cfg.legal = true ∧ ((∃ e evs, nextEvent s = some e ∧ runEvent e { s with events := evs } = .next t)
      ∨ (nextEvent s = none ∧ t = s)) := by
  unfold step at h
  split at h
  · rename_i hl
    refine ⟨hl, ?_⟩
    unfold runNext at h
    cases he : s.events with
    | cons e rest =>
      rw [he] at h
      exact Or.inl ⟨e, rest, by rw [nextEvent, he], h⟩
    | nil =>
      rw [he] at h
      unfold runMain at h
      simp only [nextEvent, he]
      cases hm : mainEvent s with
      | some e =>
        rw [hm] at h
        exact Or.inl ⟨e, [], rfl, by rw [← he]; exact h⟩
      | none =>
        rw [hm] at h
        injection h with h
        exact Or.inr ⟨rfl, h.symm⟩
  · cases h

theorem runSteps_zero (s : State) : runSteps 0 s = .next s := Host.Core.run.eq_1 core s

theorem runSteps_succ {s t : State} {n : Nat} (h : step s = .next t) : runSteps (n + 1) s = runSteps n t := by
  have e := Host.Core.run.eq_2 core s n
  rw [show core.step s = .next t from h] at e
  exact e

/-- Two runs in a row. -/
theorem runSteps_add {m : Nat} : ∀ {n : Nat} {s t : State}, runSteps n s = .next t →
    runSteps (n + m) s = runSteps m t := by
  intro n
  induction n with
  | zero =>
    intro s t h
    rw [runSteps_zero] at h
    injection h with h; subst h; rw [Nat.zero_add]
  | succ n ih =>
    intro s t h
    have e := Host.Core.run.eq_2 core s n
    cases hs : step s with
    | next s' =>
      rw [runSteps_succ hs] at h
      rw [Nat.add_right_comm, runSteps_succ hs]
      exact ih h
    | fault r => rw [show core.step s = .fault r from hs] at e; rw [show runSteps (n+1) s = _ from e] at h; cases h
    | refused r => rw [show core.step s = .refused r from hs] at e; rw [show runSteps (n+1) s = _ from e] at h; cases h

/-- One more scheduled event in front of a run. -/
theorem runSteps_event {s t : State} {e : Event} {rest : List Event} {n : Nat} {o : Outcome}
    (hl : s.cfg.legal = true) (he : s.events = e :: rest) (hr : runEvent e { s with events := rest } = .next t) (h : runSteps n t = o) : runSteps (n + 1) s = o :=
  (runSteps_succ ((step_event hl he).trans hr)).trans h

theorem frameBytes_length (s : State) : (frameBytes s).length = s.rxIndex := by simp [frameBytes]

/-- The frame byte by byte (R18). -/
theorem frame_getD (s : State) {i : Nat} (h : i < s.rxIndex) : (frameBytes s).getD i 0 = s.buf.read i := by
  rw [frameBytes, Memory.getD_readList _ _ _ _ _ h, Nat.zero_add]

/-- Gate 3 on the buffer (R149). -/
theorem trailer_iff (s : State) (h : 2 ≤ s.rxIndex) : trailerMatches (frameBytes s) = true ↔
    (crc16 (s.buf.readList 0 (s.rxIndex - 2))).toNat
      = (s.buf.read (s.rxIndex - 2)).toNat + 256 * (s.buf.read (s.rxIndex - 1)).toNat := by
  rw [trailerMatches, frameBytes_length, frame_getD s (by omega), frame_getD s (by omega), frameBytes,
    Memory.take_readList _ _ _ _ (by omega),
    beq_iff_eq, ← BitVec.toNat_inj, littleEndian_toNat]

/-- The gates are the conditions of R158. -/
theorem gates_iff (s : State) : gates s.slaveAddr (frameBytes s) = none ↔ pseudoGates s = true := by
  unfold gates pseudoGates
  rw [frameBytes_length]
  by_cases h4 : s.rxIndex < 4
  · rw [if_pos (by simpa using h4)]
    simp; omega
  · rw [if_neg (by simpa using h4), frame_getD s (by omega)]
    by_cases ha : s.buf.read 0 ≠ s.slaveAddr ∧ s.buf.read 0 ≠ Config.broadcast
    · rw [if_pos ha]
      have h1 := ha.1
      have h2 : s.buf.read 0 ≠ 0#8 := ha.2
      simp [h1, h2]
    · rw [if_neg ha]
      have ha' : s.buf.read 0 = s.slaveAddr ∨ s.buf.read 0 = 0#8 := by
        by_cases h1 : s.buf.read 0 = s.slaveAddr
        · exact Or.inl h1
        · exact Or.inr (by simpa using fun h => ha ⟨h1, h⟩)
      have ht := trailer_iff s (by omega)
      cases hm : trailerMatches (frameBytes s)
      · have hne : ¬ _ := fun h => by rw [ht.mpr h] at hm; cases hm
        simp only [Bool.not_false, if_true]
        simp [hne]
      · have := ht.mp hm
        simp [this]
        exact ⟨by omega, ha'⟩

/-- A frame that fails a gate. -/
theorem process_drop {s : State} (h : s.rxIndex ≤ 256) (hg : pseudoGates s = false) :
    process s = .next { s with respLen := 0, phase := .done } := by
  unfold process
  rw [if_neg (by simpa using h)]
  have : gates s.slaveAddr (frameBytes s) ≠ none := fun e => by rw [(gates_iff s).mp e] at hg; cases hg
  cases hgs : gates s.slaveAddr (frameBytes s) with
  | none => exact absurd hgs this
  | some d => rfl

/-- A frame that passes the gates. -/
theorem process_accept {s : State} (h : s.rxIndex ≤ 256) (hg : pseudoGates s = true) :
    process s = match decode (frameBytes s) with
      | .error _ => .next { s with respLen := 0, phase := .done }
      | .ok i => exec i s := by
  unfold process
  rw [if_neg (by simpa using h), (gates_iff s).mpr hg]
  rfl

/-- The elapsed time of R130 in integers. -/
theorem elapsed_toNat (s : State) : (elapsed s).toNat = (s.now.toNat + 2 ^ 32 - s.lastRxTime.toNat) % 2 ^ 32 := by
  have := s.lastRxTime.isLt
  rw [elapsed, BitVec.toNat_sub]
  congr 1; omega

theorem silence_iff (s : State) :
    silenceReached s = decide (5 ≤ (s.now.toNat + 2 ^ 32 - s.lastRxTime.toNat) % 2 ^ 32) := by
  rw [silenceReached, ← elapsed_toNat]
  rfl

/-- Everything a tick does (R130). -/
theorem tick_eq (s : State) : tick s = { s with frameReady := s.frameReady || (decide (0 < s.rxIndex)
        && decide (5 ≤ (s.now.toNat + 2 ^ 32 - s.lastRxTime.toNat) % 2 ^ 32)) } := by
  unfold tick
  rw [silence_iff]
  cases s with
  | mk _ _ _ _ _ frameReady _ _ _ _ _ _ _ _ _ _ _ _ _ =>
    cases frameReady <;> simp <;> split <;> simp_all

theorem poll_due {s : State} (hp : s.phase = .idle) (hr : s.frameReady = true) : poll s = process s := if_pos ⟨hp, hr⟩

end Sys2Proof.Machine
end

