-- ==== Sys2Proof/Tests/Slice0.lean ====
section
/-! SUPPORT. The model's own tests, each expected value from `spec/95_test_vectors.md` or `spec/opcode_table.json`; and for
every statement with hypotheses a concrete state and operands that meet them (`witness_<statement>`). -/

set_option Elab.async false

namespace Sys2Proof.Tests

open Sys2Proof.Machine

/-! ### Helpers -/

/-- The next state of an outcome, if it is one. -/
def after (o : Outcome) : Option State :=
  match o with
  | .next s => some s
  | .fault _ => none
  | .refused _ => none

/-- An outcome has a next state with a property. -/
def leads (o : Outcome) (p : State → Bool) : Bool := (after o).any p

theorem exists_of_leads {o : Outcome} {p : State → Bool} (h : leads o p = true) : ∃ t, o = .next t ∧ p t = true := by
  cases o with
  | next t => exact ⟨t, rfl, by simpa [leads, after] using h⟩
  | fault r => simp [leads, after] at h
  | refused r => simp [leads, after] at h

/-- The state after reset with a schedule. -/
def idleState (events : List Event) : State := { State.reset with events := events }

/-- A received frame, ready, with a schedule. -/
def readyState (frame : List Byte) (events : List Event) : State :=
  { State.reset with
    buf := Memory.writeList [] 0 frame
    rxIndex := frame.length
    frameReady := true
    now := 5#32
    events := events }

/-- V110's response `03 83 03 A0 F1` on its way, in phase `p`, with `k` bytes sent, after the request `03 03 00 00 00 00
44 28`. -/
def sendState (p : Phase) (k : Nat) (events : List Event) : State :=
  { readyState [0x03#8, 0x03#8, 0x00#8, 0x00#8, 0x00#8, 0x00#8, 0x44#8, 0x28#8] events with
    resp := Memory.writeList [] 0 [0x03#8, 0x83#8, 0x03#8, 0xA0#8, 0xF1#8]
    respLen := 5
    txIdx := k
    phase := p
    de := sending p
    trace := if sending p then [.de true] else [] }

/-- The source's end-to-end request (S6). -/
def s6 : List Byte := [0x03#8, 0x06#8, 0x00#8, 0x0B#8, 0x0F#8, 0xFF#8, 0xBC#8, 0x5A#8]

/-- V60's registers. -/
def v60State : State := { State.reset with x := [(0, 0x1234#16), (1, 0xABCD#16)] }

/-- The build of V76, N = 128. -/
def build128 : Config := { Config.standard with regCount := 128 }

/-- A build with a timeout. -/
def buildTimeout : Config := { Config.standard with tcTimeout := some 1 }

/-! ### WellFormed: an ill-formed term for each check -/

theorem test_rhr_too_long : WellFormed (.rhr 3 0 1 (List.replicate 249 0)) = false := by decide +kernel
theorem test_rhr_longest : WellFormed (.rhr 3 0 1 (List.replicate 248 0)) = true := by decide +kernel
theorem test_wsr_too_long : WellFormed (.wsr 3 0 1 (List.replicate 249 0)) = false := by decide +kernel
theorem test_illfn80_too_long : WellFormed (.illfn80 3 0 (List.replicate 253 0)) = false := by decide +kernel
theorem test_illfn80_longest : WellFormed (.illfn80 3 0 (List.replicate 252 0)) = true := by decide +kernel
theorem test_illfn40_too_long : WellFormed (.illfn40 3 0 (List.replicate 253 0)) = false := by decide +kernel
theorem test_illfn20_too_long : WellFormed (.illfn20 3 0 (List.replicate 253 0)) = false := by decide +kernel
theorem test_illfn10_too_long : WellFormed (.illfn10 3 0 (List.replicate 253 0)) = false := by decide +kernel
theorem test_illfn08_too_long : WellFormed (.illfn08 3 0 (List.replicate 253 0)) = false := by decide +kernel
theorem test_illfn00_too_long : WellFormed (.illfn00 3 0 (List.replicate 253 0)) = false := by decide +kernel
theorem test_illfn02_too_long : WellFormed (.illfn02 3 (List.replicate 253 0)) = false := by decide +kernel
theorem test_illfn07_too_long : WellFormed (.illfn07 3 (List.replicate 253 0)) = false := by decide +kernel

/-! ### Decode: one word per row, written out from its encoding -/

/-- `aaaaaaaa 00000011 ssssssss ssssssss qqqqqqqq qqqqqqqq llllllll hhhhhhhh`; the trailer is V76's. -/
theorem test_decode_rhr : (decode [0b00000011#8, 0b00000011#8, 0b00000000#8, 0b00000011#8, 0b00000000#8, 0b01111101#8,
    0b01110100#8, 0b00001001#8]).toOption = some (.rhr 3 3 125 []) := by decide +kernel

/-- `aaaaaaaa 00000110 rrrrrrrr rrrrrrrr vvvvvvvv vvvvvvvv llllllll hhhhhhhh`; S6. -/
theorem test_decode_wsr : (decode [0b00000011#8, 0b00000110#8, 0b00000000#8, 0b00001011#8, 0b00001111#8, 0b11111111#8,
    0b10111100#8, 0b01011010#8]).toOption = some (.wsr 3 11 0x0FFF []) := by decide +kernel

/-- `aaaaaaaa 1fffffff`; V103. -/
theorem test_decode_illfn80 :
    (decode [0b00000011#8, 0b10000011#8, 0b01000000#8, 0b11100001#8]).toOption = some (.illfn80 3 0b0000011 []) := by
  decide +kernel

/-- `aaaaaaaa 01ffffff`. -/
theorem test_decode_illfn40 :
    decodeTableWord 16 0b0000001101101010 = some (.illfn40 3 0b101010 [0, 0, 0, 0]) := by decide +kernel

/-- `aaaaaaaa 001fffff`. -/
theorem test_decode_illfn20 :
    decodeTableWord 16 0b0000001100110101 = some (.illfn20 3 0b10101 [0, 0, 0, 0]) := by decide +kernel

/-- `aaaaaaaa 0001ffff`; V102. -/
theorem test_decode_illfn10 :
    (decode [0b00000011#8, 0b00010000#8, 0b00000000#8, 0b10001100#8]).toOption = some (.illfn10 3 0b0000 []) := by
  decide +kernel

/-- `aaaaaaaa 00001fff`. -/
theorem test_decode_illfn08 :
    decodeTableWord 16 0b0000001100001101 = some (.illfn08 3 0b101 [0, 0, 0, 0]) := by decide +kernel

/-- `aaaaaaaa 00000f0f`; V100, function 0x04. -/
theorem test_decode_illfn00 :
    (decode [0b00000011#8, 0b00000100#8, 0b00000000#8, 0b10000011#8]).toOption = some (.illfn00 3 0b10 []) := by
  decide +kernel

/-- `aaaaaaaa 00000010`. -/
theorem test_decode_illfn02 :
    decodeTableWord 16 0b1111011100000010 = some (.illfn02 0xF7 [0, 0, 0, 0]) := by decide +kernel

/-- `aaaaaaaa 00000111`. -/
theorem test_decode_illfn07 :
    decodeTableWord 16 0b0000000000000111 = some (.illfn07 0 [0, 0, 0, 0]) := by decide +kernel

/-- V54: seven bytes do not hold the four payload bytes (D12). -/
theorem test_decode_short_wsr :
    (decode [0x03#8, 0x06#8, 0x00#8, 0x0B#8, 0x0F#8, 0x27#8, 0xBC#8]).toOption = none := by decide +kernel

/-- V41: three bytes. -/
theorem test_decode_three_bytes : (decode [0x03#8, 0x06#8, 0x00#8]).toOption = none := by decide

/-- R96: more than the buffer holds. -/
theorem test_decode_too_long : (decode (List.replicate 257 0x80#8)).toOption = none := by decide +kernel

/-- V56: the byte between the fields and the trailer is kept and ignored (R94). -/
theorem test_decode_extra :
    (decode [0x03#8, 0x06#8, 0x00#8, 0x0B#8, 0x0F#8, 0xFF#8, 0x99#8, 0x9B#8, 0xDB#8]).toOption
      = some (.wsr 3 11 0x0FFF [0x99#8]) := by decide +kernel

/-- R98: `RHR 3, 0, 2` expands to V60's bytes. -/
theorem test_encode_rhr :
    encode (.rhr 3 0 2 []) = [0x03#8, 0x03#8, 0x00#8, 0x00#8, 0x00#8, 0x02#8, 0xC5#8, 0xE9#8] := by decide +kernel

/-! ### CRC Engine -/

/-- V13, V16. -/
theorem test_crc : crc16 [0x03#8, 0x03#8, 0x00#8, 0x00#8, 0x00#8, 0x02#8] = 0xE9C5#16
    ∧ crc16 [0x11#8, 0x03#8, 0x00#8, 0x6B#8, 0x00#8, 0x03#8] = 0x8776#16 := by decide +kernel

/-- R112's sample entries. -/
theorem test_crc_table : crcTableEntry 0x01#8 = 0xC0C1#16 ∧ crcTableEntry 0x80#8 = 0xA001#16
    ∧ crcTableEntry 0xFF#8 = 0x4040#16 := by decide +kernel

/-! ### Requests, one step each -/

/-- V60: the values big-endian, the byte count. -/
theorem test_rhr_reads : leads (exec (.rhr 3 0 2 []) v60State) (fun t => respBytes t
    = [0x03#8, 0x03#8, 0x04#8, 0x12#8, 0x34#8, 0xAB#8, 0xCD#8, 0x23#8, 0xE0#8]) = true := by decide +kernel

/-- V73: the sum does not wrap (D11). -/
theorem test_rhr_no_wrap : leads (exec (.rhr 3 0xFFFF 1 []) v60State) (fun t => respBytes t
    = [0x03#8, 0x83#8, 0x02#8, 0x61#8, 0x31#8]) = true := by decide +kernel

/-- S6: the register, the hook, the echo. -/
theorem test_wsr_writes : leads (step (readyState s6 [.poll])) (fun t => respBytes t = s6
    && t.x = [(11, 0x0FFF#16)] && t.trace = [.hook 11 0x0FFF] && t.phase = .guardPre) = true := by decide +kernel

/-- S5: one past the end; the store is unchanged. -/
theorem test_wsr_past_end : leads (exec (.wsr 3 16 1 []) State.reset) (fun t => respBytes t
    = [0x03#8, 0x86#8, 0x02#8, 0x62#8, 0x61#8] && t.x = [] && t.trace = []) = true := by decide +kernel

/-- V103 and V104: bit 7 already set. -/
theorem test_illfn80 : leads (exec (.illfn80 3 0b0000011 []) State.reset) (fun t => respBytes t
      = [0x03#8, 0x83#8, 0x01#8, 0x21#8, 0x30#8]) = true
    ∧ leads (exec (.illfn80 3 0b1111111 []) State.reset) (fun t => respBytes t
      = [0x03#8, 0xFF#8, 0x01#8, 0x01#8, 0xF0#8]) = true := by decide +kernel

/-- R228 for function 0x6A: the second byte is 0xEA. -/
theorem test_illfn40 : leads (exec (.illfn40 3 0b101010 []) State.reset) (fun t => respBytes t
    = withCrc [0x03#8, 0xEA#8, 0x01#8]) = true := by decide +kernel

/-- R228 for function 0x35. -/
theorem test_illfn20 : leads (exec (.illfn20 3 0b10101 []) State.reset) (fun t => respBytes t
    = withCrc [0x03#8, 0xB5#8, 0x01#8]) = true := by decide +kernel

/-- V102. -/
theorem test_illfn10 : leads (exec (.illfn10 3 0 []) State.reset) (fun t => respBytes t
    = [0x03#8, 0x90#8, 0x01#8, 0x2C#8, 0x00#8]) = true := by decide +kernel

/-- R228 for function 0x0D. -/
theorem test_illfn08 : leads (exec (.illfn08 3 0b101 []) State.reset) (fun t => respBytes t
    = withCrc [0x03#8, 0x8D#8, 0x01#8]) = true := by decide +kernel

/-- V100 and V101: functions 0x04 and 0x00. -/
theorem test_illfn00 : leads (exec (.illfn00 3 0b10 []) State.reset) (fun t => respBytes t
      = [0x03#8, 0x84#8, 0x01#8, 0x23#8, 0x00#8]) = true
    ∧ leads (exec (.illfn00 3 0b00 []) State.reset) (fun t => respBytes t
      = [0x03#8, 0x80#8, 0x01#8, 0x21#8, 0xC0#8]) = true := by decide +kernel

/-- S7's kind of request: an unsupported function on broadcast is not answered. -/
theorem test_illfn02_broadcast : leads (exec (.illfn02 0 []) State.reset) (fun t => t.respLen = 0
    && t.phase = .done && t.trace = []) = true := by decide +kernel

/-- R228 for function 0x07. -/
theorem test_illfn07 : leads (exec (.illfn07 3 []) State.reset) (fun t => respBytes t
    = withCrc [0x03#8, 0x87#8, 0x01#8]) = true := by decide +kernel

/-- V46: the trailer bytes swapped. -/
theorem test_crc_gate : leads (step (readyState [0x03#8, 0x06#8, 0x00#8, 0x0B#8, 0x0F#8, 0xFF#8, 0x5A#8, 0xBC#8] [.poll]))
    (fun t => t.respLen = 0 && t.x = [] && t.trace = [] && t.phase = .done) = true := by decide +kernel

/-- V42: foreign address. -/
theorem test_address_gate : leads (step (readyState [0x04#8, 0x06#8, 0x00#8, 0x0B#8, 0x0F#8, 0xFF#8, 0xBD#8, 0xED#8] [.poll]))
    (fun t => t.respLen = 0 && t.x = [] && t.trace = [] && t.phase = .done) = true := by decide +kernel

/-! ### Receiver, transmitter, collaborator, reset, one step each -/

/-- V32 and V33: the time difference across the wrap of `now`. -/
theorem test_tick_wraps :
    leads (step { idleState [.tick] with rxIndex := 2, lastRxTime := 0xFFFFFFFE#32, now := 3#32 })
      (fun t => t.frameReady) = true
    ∧ leads (step { idleState [.tick] with rxIndex := 2, lastRxTime := 0xFFFFFFFE#32, now := 2#32 })
      (fun t => !t.frameReady) = true := by decide +kernel

/-- V30: a full buffer refreshes the timestamp only. -/
theorem test_full_buffer : leads (step { idleState [.rxByte 0xBB#8] with rxIndex := 256, now := 300#32 })
    (fun t => t.rxIndex = 256 && t.buf = [] && t.lastRxTime = 300#32) = true := by decide +kernel

/-- V111's first byte. -/
theorem test_send_byte : leads (step (sendState .send 0 [.sendByte]))
    (fun t => t.trace = [.de true, .tx 0x03#8] && t.txIdx = 1) = true := by decide +kernel

/-- V115: the timeout. -/
theorem test_timeout : leads (step { sendState .waitTc 5 [.tcTimeout] with cfg := buildTimeout })
    (fun t => t.trace = [.de true, .de false] && t.txFault && t.phase = .done) = true := by decide +kernel

/-- V91: the collaborator port past the end. -/
theorem test_collab_out_of_range : leads (step (idleState [.collabWrite 16 1]))
    (fun t => t.reply = some .outOfRange && t.x = []) = true := by decide +kernel

/-- R272: a collaborator write while a response is being sent waits and changes no register. -/
theorem test_collab_is_delayed : leads (step (sendState .send 4 [.collabWrite 11 1]))
    (fun t => t.x = [] && t.reply = none && t.delayed = [.write 11 1]) = true := by decide +kernel

/-- R272: the delay ends with the consumption, in the order of the accesses. -/
theorem test_delay_ends : leads (step { sendState .done 5 [.clear, .tick] with delayed := [.read 0, .write 11 1] })
    (fun t => t.events = [.collabRead 0, .collabWrite 11 1, .tick] && t.delayed = []) = true := by decide +kernel

/-- V119: reset in the middle of a response. -/
theorem test_reset_while_sending : leads (step (sendState .send 3 [.reset]))
    (fun t => !t.de && t.trace = [.de true, .de false] && t.phase = .idle && t.rxIndex = 0) = true := by decide +kernel

/-- The first instruction after reset: row RHR's word 0x0303 is `RHR 3, 0, 0`, and one step answers it (V67). -/
theorem test_first_step_of_a_table_word : decodeTableWord 16 0x0303 = some (.rhr 3 0 0 [])
    ∧ leads (step (State.reset.withFetchWord 16 0x0303)) (fun t => respBytes t
      = [0x03#8, 0x83#8, 0x03#8, 0xA0#8, 0xF1#8] && t.phase = .guardPre) = true := by decide +kernel

/-! ### Witnesses: for every statement with hypotheses, a state and operands that meet them -/

theorem witness_ResetReleasesTheLineAndForgets : (sendState .send 3 [.reset]).cfg.legal = true
    ∧ (sendState .send 3 [.reset]).events = .reset :: [] ∧ (sendState .send 3 [.reset]).de = true := by decide

/-- The ends of each parameter's range. -/
theorem witness_IllegalBuildsAreRefused :
    Config.legal { Config.standard with regCount := 1, slaveAddr := 1, tcTimeout := some 1 } = true
    ∧ Config.legal { Config.standard with regCount := 65536, slaveAddr := 247 } = true
    ∧ Config.legal { Config.standard with regCount := 0 } = false
    ∧ Config.legal { Config.standard with regCount := 65537 } = false
    ∧ Config.legal { Config.standard with slaveAddr := 0 } = false
    ∧ Config.legal { Config.standard with slaveAddr := 248 } = false
    ∧ Config.legal { Config.standard with tcTimeout := some 0 } = false := by decide

theorem witness_InvariantHoldsAtReset : Config.standard.legal = true := by decide

/-- The invariant in the middle of V110's transmission, with four of five bytes sent. -/
theorem sending_inv : Inv (sendState .send 4 [.sendByte]) := by
  constructor <;> decide +kernel

theorem reset_inv : Inv State.reset := by
  constructor <;> decide +kernel

theorem witness_EveryStepKeepsTheInvariant :
    ∃ t, Inv (sendState .send 4 [.sendByte]) ∧ step (sendState .send 4 [.sendByte]) = .next t := by
  obtain ⟨t, h, -⟩ := exists_of_leads (o := step (sendState .send 4 [.sendByte])) (p := fun _ => true) (by decide +kernel)
  exact ⟨t, sending_inv, h⟩

theorem witness_NoStepStopsFromTheInvariant : Inv State.reset ∧ Inv (sendState .send 4 [.sendByte]) :=
  ⟨reset_inv, sending_inv⟩

/-- One step for each of the table's writers that has changed its element, under its condition. -/
theorem witness_EachElementHasItsWriters :
    (∃ t, step (readyState s6 [.poll]) = .next t ∧ (t.x != [] && t.resp != [] && t.phase == .guardPre) = true)
    ∧ (∃ t, step (idleState [.collabWrite 15 1]) = .next t ∧ (t.x != []) = true)
    ∧ (∃ t, step (idleState [.rxByte 3]) = .next t ∧ (t.buf != [] && t.rxIndex == 1) = true)
    ∧ (∃ t, step { readyState s6 [.tick] with frameReady := false } = .next t ∧ t.frameReady = true)
    ∧ (∃ t, step { readyState s6 [.clear] with phase := .done } = .next t ∧ (!t.frameReady && t.rxIndex == 0) = true)
    ∧ (∃ t, step (idleState [.advance]) = .next t ∧ (t.now == 1#32) = true)
    ∧ (∃ t, step (sendState .guardPre 0 [.guardPre]) = .next t ∧ (t.de && t.phase == .send) = true)
    ∧ (∃ t, step (sendState .send 4 [.sendByte]) = .next t ∧ (t.txIdx == 5) = true)
    ∧ (∃ t, step { sendState .waitTc 5 [.tcTimeout] with cfg := buildTimeout } = .next t ∧ t.txFault = true)
    ∧ (∃ t, step (sendState .send 4 [.reset]) = .next t ∧ (!t.de && t.phase == .idle) = true) := by
  refine ⟨?_, ?_, ?_, ?_, ?_, ?_, ?_, ?_, ?_, ?_⟩ <;> exact exists_of_leads (by decide +kernel)

/-- Up by GuardPre; down by GuardPost, the timeout and reset. -/
theorem witness_OnlyTheTransmitterTurnsTheLine :
    (∃ t, step (sendState .guardPre 0 [.guardPre]) = .next t ∧ (t.de != (sendState .guardPre 0 []).de) = true)
    ∧ (∃ t, step (sendState .guardPost 5 [.guardPost]) = .next t ∧ (t.de != (sendState .guardPost 5 []).de) = true)
    ∧ (∃ t, step { sendState .waitTc 5 [.tcTimeout] with cfg := buildTimeout } = .next t
        ∧ (t.de != (sendState .waitTc 5 []).de) = true)
    ∧ (∃ t, step (sendState .send 3 [.reset]) = .next t ∧ (t.de != (sendState .send 3 []).de) = true) := by
  refine ⟨?_, ?_, ?_, ?_⟩ <;> exact exists_of_leads (by decide +kernel)

theorem witness_EachStepEmitsAtMostOneEvent :
    (∃ t, step (readyState s6 [.poll]) = .next t ∧ (t.trace == [.hook 11 0x0FFF]) = true)
    ∧ (∃ t, step (sendState .send 0 [.sendByte]) = .next t ∧ (t.trace == [.de true, .tx 3]) = true)
    ∧ (∃ t, step (sendState .guardPre 0 [.guardPre]) = .next t ∧ (t.trace == [.de true]) = true)
    ∧ (∃ t, step (sendState .guardPost 5 [.guardPost]) = .next t ∧ (t.trace == [.de true, .de false]) = true) := by
  refine ⟨?_, ?_, ?_, ?_⟩ <;> exact exists_of_leads (by decide +kernel)

/-- Two different states that differ in a hidden byte of each buffer, before a byte and before a poll. -/
theorem witness_HiddenBytesNeverReachAnOutput :
    (SameVisible (idleState [.rxByte 3]) { idleState [.rxByte 3] with buf := [(0, 0x55#8)], resp := [(0, 0x66#8)] }
      ∧ ∃ t, step (idleState [.rxByte 3]) = .next t ∧ (t.rxIndex == 1) = true)
    ∧ (SameVisible (readyState [0x55#8] [.poll]) { readyState [0x55#8] [.poll] with buf := [(0, 0x55#8), (255, 0x77#8)] }
      ∧ ∃ t, step (readyState [0x55#8] [.poll]) = .next t ∧ (t.phase == .done) = true) := by
  refine ⟨⟨⟨rfl, ?_, ?_, by decide⟩, exists_of_leads (by decide +kernel)⟩,
    ⟨⟨rfl, ?_, ?_, by decide⟩, exists_of_leads (by decide +kernel)⟩⟩
  · intro a h; exact absurd h (Nat.not_lt_zero a)
  · intro h; exact absurd h (by decide)
  · intro a h
    have : a = 0 := by have : a < 1 := h; omega
    subst this; decide
  · intro h; exact absurd h (by decide)

/-- Addresses N - 1 and N of each clause, and a phase other than P_IDLE. -/
theorem witness_CollaboratorPortReadsAndWrites :
    ((idleState [.collabRead 15]).cfg.legal = true ∧ (idleState [.collabRead 15]).x.wf = true
      ∧ (idleState [.collabRead 15]).events = .collabRead 15 :: [] ∧ (idleState [.collabRead 15]).phase = .idle)
    ∧ ((idleState [.collabWrite 15 1]).events = .collabWrite 15 1 :: [] ∧ 15 < (idleState [.collabWrite 15 1]).cfg.regCount)
    ∧ ((idleState [.collabWrite 16 1]).events = .collabWrite 16 1 :: []
      ∧ (idleState [.collabWrite 16 1]).cfg.regCount ≤ 16)
    ∧ ((sendState .send 0 [.collabRead 15]).events = .collabRead 15 :: []
      ∧ (sendState .send 0 [.collabRead 15]).phase ≠ .idle)
    ∧ ((sendState .done 5 [.collabWrite 16 1]).events = .collabWrite 16 1 :: []
      ∧ (sendState .done 5 [.collabWrite 16 1]).phase ≠ .idle) := by decide

/-- The longest well-formed frames, with every field at the end of its range. -/
theorem witness_DecodingAnEncodedRequestGivesItBack :
    WellFormed (.rhr 0xFF 0xFFFF 0xFFFF (List.replicate 248 0xFF)) = true
    ∧ WellFormed (.wsr 0 0 0 []) = true ∧ WellFormed (.illfn80 0xFF 0b1111111 (List.replicate 252 0)) = true
    ∧ WellFormed (.illfn00 0 0 []) = true := by decide +kernel

theorem witness_EncodingADecodedFrameGivesItBack : decode s6 = .ok (.wsr 3 11 0x0FFF []) ∧ trailerMatches s6 = true :=
  ⟨rfl, by decide +kernel⟩

theorem witness_EveryFunctionByteSelectsOneRow : (0x04#8 : Byte) ≠ 0x03#8 ∧ (0x07#8 : Byte) ≠ 0x06#8 := by decide

/-- Frames of 8 and of 256 bytes, for each of the two functions. -/
theorem witness_RequestFieldsAreAssembledInWireOrder :
    (8 ≤ s6.length ∧ s6.length ≤ 256 ∧ s6.getD 1 0 = 0x06#8)
    ∧ (8 ≤ (3#8 :: 3#8 :: List.replicate 254 0xAA#8).length ∧ (3#8 :: 3#8 :: List.replicate 254 0xAA#8).length ≤ 256
      ∧ (3#8 :: 3#8 :: List.replicate 254 0xAA#8).getD 1 0 = 0x03#8) := by decide +kernel

/-- The shortest frame the statement admits, its last bit; the source's frame, its first bit. -/
theorem witness_EverySingleBitErrorIsDetected :
    (2 ≤ [0xFF#8, 0xFF#8].length ∧ trailerMatches [0xFF#8, 0xFF#8] = true ∧ 1 < [0xFF#8, 0xFF#8].length ∧ 7 < 8)
    ∧ (2 ≤ s6.length ∧ trailerMatches s6 = true ∧ 0 < s6.length) := by decide +kernel

/-- V31: the wrap. -/
theorem witness_AdvanceCountsOneMillisecond :
    ({ idleState [.advance] with now := 0xFFFFFFFF#32 } : State).cfg.legal = true
    ∧ ({ idleState [.advance] with now := 0xFFFFFFFF#32 } : State).events = .advance :: [] := by decide

/-- V20 and V29: the first and the last cell. -/
theorem witness_AnArrivingByteIsStored :
    ((idleState [.rxByte 3]).cfg.legal = true ∧ (idleState [.rxByte 3]).events = .rxByte 3 :: []
      ∧ (idleState [.rxByte 3]).buf.wf = true ∧ (idleState [.rxByte 3]).frameReady = false
      ∧ (idleState [.rxByte 3]).rxIndex < 256)
    ∧ ({ idleState [.rxByte 0xAA] with rxIndex := 255 } : State).rxIndex < 256 := by decide

/-- V34 and V30. -/
theorem witness_ADiscardedByteChangesNoCell :
    ((sendState .send 0 [.rxByte 0x55]).cfg.legal = true ∧ (sendState .send 0 [.rxByte 0x55]).events = .rxByte 0x55 :: []
      ∧ (sendState .send 0 [.rxByte 0x55]).frameReady = true)
    ∧ (({ idleState [.rxByte 0xBB] with rxIndex := 256 } : State).frameReady = false
      ∧ ({ idleState [.rxByte 0xBB] with rxIndex := 256 } : State).rxIndex = 256) := by decide

theorem witness_ATickSealsTheFrameAfterSilence : (idleState [.tick]).cfg.legal = true
    ∧ (idleState [.tick]).events = .tick :: [] := by decide

/-- The three values of SIMUL_ORDER. -/
theorem witness_ByteAndTickInOneInstantAreOrdered :
    ((idleState [.rxByteWithTick 3]).cfg.legal = true
      ∧ (idleState [.rxByteWithTick 3]).events = .rxByteWithTick 3 :: []
      ∧ (idleState [.rxByteWithTick 3]).cfg.simulOrder = .free)
    ∧ (({ Config.standard with simulOrder := .byteFirst } : Config).legal = true
      ∧ ({ Config.standard with simulOrder := .tickFirst } : Config).legal = true) := by decide

theorem witness_TheTimingScenarioOfTheSource : Config.standard.legal = true := by decide

/-- A rise at exactly 5 ms; a fall by Clear; a fall by reset. -/
theorem witness_TheReadyFlagHasTwoTransitions :
    (∃ t, step { idleState [.tick] with rxIndex := 1, now := 5#32 } = .next t ∧ t.frameReady = true)
    ∧ (∃ t, step { readyState s6 [.clear] with phase := .done } = .next t ∧ (!t.frameReady) = true)
    ∧ (∃ t, step (readyState s6 [.reset]) = .next t ∧ (!t.frameReady) = true) := by
  refine ⟨?_, ?_, ?_⟩ <;> exact exists_of_leads (by decide +kernel)

theorem witness_AReadyFrameIsStable : (readyState s6 [.rxByte 0x55]).frameReady = true
    ∧ (∃ t, step (readyState s6 [.rxByte 0x55]) = .next t ∧ (t.rxIndex == 8) = true)
    ∧ nextEvent (readyState s6 [.rxByte 0x55]) ≠ some .reset
    ∧ ¬ (nextEvent (readyState s6 [.rxByte 0x55]) = some .clear ∧ (readyState s6 [.rxByte 0x55]).phase = .done) :=
  ⟨rfl, exists_of_leads (by decide +kernel), by decide, by decide⟩

/-- A step that leads from Idle to Accumulating. -/
theorem witness_TheReceiverStateMachine :
    Inv (idleState [.rxByte 3]) ∧ ∃ t, step (idleState [.rxByte 3]) = .next t
      ∧ (rxState t == .accumulating) = true := by
  refine ⟨?_, exists_of_leads (by decide +kernel)⟩
  constructor <;> decide +kernel

/-- One byte more than the buffer holds, and one byte alone. -/
theorem witness_ReceivedBytesBecomeTheFrame :
    ((idleState ((List.replicate 257 0xAA#8).map .rxByte)).cfg.legal = true
      ∧ (idleState ((List.replicate 257 0xAA#8).map .rxByte)).buf.wf = true
      ∧ (idleState ((List.replicate 257 0xAA#8).map .rxByte)).frameReady = false
      ∧ (idleState ((List.replicate 257 0xAA#8).map .rxByte)).rxIndex = 0)
    ∧ (List.replicate 257 0xAA#8 ≠ [] ∧ [0xAA#8] ≠ [])
    ∧ (idleState [.rxByte 0xAA]).events = [0xAA#8].map .rxByte ++ [] := by decide +kernel

theorem witness_APollProcessesOnlyAReadyFrame :
    ((readyState s6 [.poll]).cfg.legal = true ∧ (readyState s6 [.poll]).events = .poll :: []
      ∧ (readyState s6 [.poll]).phase = .idle ∧ (readyState s6 [.poll]).frameReady = true)
    ∧ (idleState [.poll]).frameReady = false ∧ (sendState .send 0 [.poll]).phase ≠ .idle := by decide

/-- The poll in the schedule, and the main loop's own. -/
theorem witness_AStepRunsTheDecodedInstruction :
    ((readyState s6 [.poll]).cfg.legal = true ∧ (readyState s6 [.poll]).phase = .idle
      ∧ (readyState s6 [.poll]).frameReady = true ∧ (readyState s6 [.poll]).rxIndex ≤ 256
      ∧ (readyState s6 [.poll]).buf.read 0 = (readyState s6 [.poll]).slaveAddr
      ∧ trailerMatches (frameBytes (readyState s6 [.poll])) = true
      ∧ (decode (frameBytes (readyState s6 [.poll]))).toOption = some (.wsr 3 11 0x0FFF [])
      ∧ (readyState s6 [.poll]).events = .poll :: [])
    ∧ (readyState s6 []).events = [] := by decide +kernel

theorem witness_AnEncodedRequestIsExecuted : PollDue (readyState s6 [.poll]) []
    ∧ WellFormed (.wsr 3 11 0x0FFF []) = true ∧ frameBytes (readyState s6 [.poll]) = encode (.wsr 3 11 0x0FFF [])
    ∧ addressByte (.wsr 3 11 0x0FFF []) = (readyState s6 [.poll]).slaveAddr :=
  ⟨⟨by decide, rfl, rfl, rfl, by decide⟩, by decide, by decide +kernel, rfl⟩

/-- Addressed to this slave, and broadcast. -/
theorem witness_ARequestIsReceivedAndExecuted :
    ((idleState (requestSchedule s6)).cfg.legal = true ∧ (idleState (requestSchedule s6)).buf.wf = true
      ∧ WellFormed (.wsr 3 11 0x0FFF []) = true ∧ (idleState (requestSchedule s6)).phase = .idle
      ∧ (idleState (requestSchedule s6)).frameReady = false ∧ (idleState (requestSchedule s6)).rxIndex = 0
      ∧ addressByte (.wsr 3 11 0x0FFF []) = (idleState (requestSchedule s6)).slaveAddr
      ∧ (idleState (requestSchedule s6)).events = requestSchedule (encode (.wsr 3 11 0x0FFF [])) ++ [])
    ∧ addressByte (.wsr 0 11 0x0FFF []) = 0x00#8 := by decide +kernel

/-- Gate 1 at three bytes; gate 2; gate 3 at the trailer. -/
theorem witness_FramesThatFailAGateAreDroppedSilently :
    (PollDue (readyState [0x03#8, 0x06#8, 0x00#8] [.poll]) [] ∧ (readyState [0x03#8, 0x06#8, 0x00#8] [.poll]).rxIndex < 4)
    ∧ (PollDue (readyState [0x04#8, 0x04#8, 0x00#8, 0x00#8] [.poll]) []
      ∧ (readyState [0x04#8, 0x04#8, 0x00#8, 0x00#8] [.poll]).buf.read 0 ≠ 0x03#8
      ∧ (readyState [0x04#8, 0x04#8, 0x00#8, 0x00#8] [.poll]).buf.read 0 ≠ 0x00#8)
    ∧ (PollDue (readyState [0x03#8, 0x06#8, 0x00#8, 0x0B#8] [.poll]) []
      ∧ (crc16 [0x03#8, 0x06#8]).toNat ≠ 0x00 + 256 * 0x0B) :=
  ⟨⟨⟨by decide, rfl, rfl, rfl, by decide⟩, by decide⟩, ⟨⟨by decide, rfl, rfl, rfl, by decide⟩, by decide⟩,
    ⟨⟨by decide, rfl, rfl, rfl, by decide⟩, by decide +kernel⟩⟩

/-- V54, seven bytes; V51, four bytes. -/
theorem witness_ShortRegisterRequestsAreDropped :
    (PollDue (readyState [0x03#8, 0x06#8, 0x00#8, 0x0B#8, 0x0F#8, 0x27#8, 0xBC#8] [.poll]) []
      ∧ (readyState [0x03#8, 0x06#8, 0x00#8, 0x0B#8, 0x0F#8, 0x27#8, 0xBC#8] [.poll]).rxIndex < 8
      ∧ (readyState [0x03#8, 0x06#8, 0x00#8, 0x0B#8, 0x0F#8, 0x27#8, 0xBC#8] [.poll]).buf.read 1 = 0x06#8)
    ∧ (PollDue (readyState [0x03#8, 0x03#8, 0x41#8, 0x41#8] [.poll]) []
      ∧ (readyState [0x03#8, 0x03#8, 0x41#8, 0x41#8] [.poll]).buf.read 1 = 0x03#8) :=
  ⟨⟨⟨by decide, rfl, rfl, rfl, by decide⟩, by decide, by decide⟩, ⟨⟨by decide, rfl, rfl, rfl, by decide⟩, by decide⟩⟩

theorem witness_TheProcessStepIsItsPseudocode : (readyState s6 []).rxIndex ≤ 256
    ∧ ({ readyState s6 [] with rxIndex := 256 } : State).rxIndex ≤ 256 := by decide

/-- A write to the last register, one past it, and a state with a response in the buffer. -/
theorem witness_EveryRequestCompletesWithinItsFrame :
    (sendState .idle 0 []).resp.wf = true ∧ (sendState .idle 0 []).x.wf = true
    ∧ (15#16 : Half).toNat < (sendState .idle 0 []).cfg.regCount
    ∧ writesRegister (sendState .idle 0 []).cfg (.wsr 3 16 1 []) = false := by decide

/-- A broadcast write to the last register, and one past it. -/
theorem witness_BroadcastIsNeverAnswered : State.reset.x.wf = true ∧ State.reset.resp.wf = true
    ∧ addressByte (.wsr 0 15 1 []) = 0x00#8 ∧ (15#16 : Half).toNat < State.reset.cfg.regCount
    ∧ writesRegister State.reset.cfg (.wsr 0 16 1 []) = false := by decide

/-- Each of the eight rows, answered; one on broadcast. -/
theorem witness_UnsupportedFunctionsAreAnswered : State.reset.resp.wf = true
    ∧ (Instr.illfn80 3 0 [] = .illfn80 3 0 [] ∧ Instr.illfn40 3 0 [] = .illfn40 3 0 []
      ∧ Instr.illfn20 3 0 [] = .illfn20 3 0 [] ∧ Instr.illfn10 3 0 [] = .illfn10 3 0 []
      ∧ Instr.illfn08 3 0 [] = .illfn08 3 0 [] ∧ Instr.illfn00 3 0 [] = .illfn00 3 0 []
      ∧ Instr.illfn02 3 [] = .illfn02 3 [] ∧ Instr.illfn07 0 [] = .illfn07 0 [])
    ∧ (3#8 : Byte) ≠ 0x00#8 ∧ (0#8 : Byte) = 0x00#8 := by decide

theorem witness_ClearEndsTheConsumption :
    (({ readyState s6 [.clear] with phase := .done } : State).cfg.legal = true
      ∧ ({ readyState s6 [.clear] with phase := .done } : State).events = .clear :: []
      ∧ ({ readyState s6 [.clear] with phase := .done } : State).phase = .done)
    ∧ (idleState [.clear]).phase ≠ .done := by decide

/-- V62: the last register; V76: 125 registers. -/
theorem witness_AReadAnswersTheRegisters :
    (State.reset.resp.wf = true ∧ (3#8 : Byte) ≠ 0x00#8 ∧ 1 ≤ (1#16 : Half).toNat ∧ (1#16 : Half).toNat ≤ 125
      ∧ (15#16 : Half).toNat + (1#16 : Half).toNat ≤ State.reset.cfg.regCount)
    ∧ ((State.resetFor build128).resp.wf = true ∧ (125#16 : Half).toNat ≤ 125
      ∧ (3#16 : Half).toNat + (125#16 : Half).toNat ≤ (State.resetFor build128).cfg.regCount) := by decide

/-- V67 and V68. -/
theorem witness_AReadOfAnIllegalQuantityIsRejected : State.reset.resp.wf = true ∧ (3#8 : Byte) ≠ 0x00#8
    ∧ (0#16 : Half).toNat = 0 ∧ 125 < (126#16 : Half).toNat := by decide

/-- V66 and V73. -/
theorem witness_AReadPastTheStoreIsRejected : State.reset.resp.wf = true ∧ (3#8 : Byte) ≠ 0x00#8
    ∧ (1 ≤ (2#16 : Half).toNat ∧ (2#16 : Half).toNat ≤ 125
      ∧ State.reset.cfg.regCount < (15#16 : Half).toNat + (2#16 : Half).toNat)
    ∧ State.reset.cfg.regCount < (0xFFFF#16 : Half).toNat + (1#16 : Half).toNat := by decide

/-- V81. -/
theorem witness_AWriteStoresAndEchoes : State.reset.x.wf = true ∧ State.reset.resp.wf = true ∧ (3#8 : Byte) ≠ 0x00#8
    ∧ (15#16 : Half).toNat < State.reset.cfg.regCount := by decide

/-- V82. -/
theorem witness_AWritePastTheStoreIsRejected : State.reset.resp.wf = true ∧ (3#8 : Byte) ≠ 0x00#8
    ∧ State.reset.cfg.regCount ≤ (16#16 : Half).toNat := by decide

/-- A broadcast write to the last register, then a state in which another register has changed. -/
theorem witness_AReadSeesTheLastWrite : ∃ u : State, State.reset.x.wf = true ∧ u.resp.wf = true ∧ (3#8 : Byte) ≠ 0x00#8
    ∧ (15#16 : Half).toNat < State.reset.cfg.regCount
    ∧ ∃ t, exec (.wsr 0 15 0xFFFF []) State.reset = .next t
      ∧ u.x.read (15#16 : Half).toNat = t.x.read (15#16 : Half).toNat ∧ u.cfg = State.reset.cfg := by
  obtain ⟨t, h, h'⟩ := exists_of_leads (o := exec (.wsr 0 15 0xFFFF []) State.reset)
    (p := fun t => t.x.wf && t.resp.wf && t.cfg == State.reset.cfg) (by decide +kernel)
  have h'' : (t.x.wf = true ∧ t.resp.wf = true) ∧ t.cfg = State.reset.cfg := by simpa using h'
  exact ⟨{ t with x := t.x.write 3 0x1234 }, by decide, h''.1.2, by decide, by decide, t, h,
    (Memory.read_write h''.1.1 _ _ _).trans (if_neg (by decide)), h''.2⟩

/-- A byte that changes a cell; a full buffer; a request that ends in a next state. -/
theorem witness_BufferAccessesStayInBounds :
    ((idleState []).buf.wf = true ∧ (rxByte 3 (idleState [])).buf.read 0 ≠ (idleState []).buf.read 0)
    ∧ ({ idleState [] with rxIndex := 256 } : State).rxIndex = 256
    ∧ (State.reset.resp.wf = true ∧ ∃ t, exec (.rhr 3 0 16 []) State.reset = .next t ∧ (t.respLen == 37) = true) :=
  ⟨by decide, rfl, by decide, exists_of_leads (by decide +kernel)⟩

/-- Each step where it is enabled and where it is not. -/
theorem witness_TheTransmitterSendsByteByByte :
    ((sendState .guardPre 0 [.guardPre]).cfg.legal = true ∧ (sendState .guardPre 0 [.guardPre]).respLen ≤ 255
      ∧ (sendState .guardPre 0 [.guardPre]).events = .guardPre :: [] ∧ (sendState .guardPre 0 [.guardPre]).phase = .guardPre)
    ∧ ((sendState .send 4 [.sendByte]).events = .sendByte :: [] ∧ (sendState .send 4 [.sendByte]).txIdx < 5)
    ∧ ((sendState .send 5 [.sendByte]).events = .sendByte :: [] ∧ ¬ (sendState .send 5 [.sendByte]).txIdx < 5)
    ∧ ((sendState .send 5 [.sendDone]).events = .sendDone :: [] ∧ (sendState .send 5 [.sendDone]).txIdx = 5)
    ∧ ((sendState .guardPost 5 [.guardPost]).events = .guardPost :: []
      ∧ (sendState .guardPost 5 [.guardPost]).phase = .guardPost) := by decide

theorem witness_TransmissionCompleteEndsTheWait : (sendState .waitTc 5 [.tc]).cfg.legal = true
    ∧ (sendState .waitTc 5 [.tc]).events = .tc :: [] ∧ (idleState [.tc]).events = .tc :: [] := by decide

theorem witness_TheTimeoutReleasesTheLine :
    (({ sendState .waitTc 5 [.tcTimeout] with cfg := buildTimeout } : State).cfg.legal = true
      ∧ ({ sendState .waitTc 5 [.tcTimeout] with cfg := buildTimeout } : State).events = .tcTimeout :: []
      ∧ ({ sendState .waitTc 5 [.tcTimeout] with cfg := buildTimeout } : State).phase = .waitTc
      ∧ ({ sendState .waitTc 5 [.tcTimeout] with cfg := buildTimeout } : State).cfg.tcTimeout ≠ none)
    ∧ (sendState .waitTc 5 [.tcTimeout]).cfg.tcTimeout = none
    ∧ (sendState .send 5 [.tcTimeout]).phase ≠ .waitTc := by decide

/-- V116's events. -/
theorem witness_WithoutTransmissionCompleteTheBlockIsStuck :
    (sendState .waitTc 5 [.rxByte 3, .advance, .tick, .poll, .collabWrite 11 1]).cfg.legal = true
    ∧ (sendState .waitTc 5 [.rxByte 3, .advance, .tick, .poll, .collabWrite 11 1]).cfg.tcTimeout = none
    ∧ (sendState .waitTc 5 [.rxByte 3, .advance, .tick, .poll, .collabWrite 11 1]).phase = .waitTc
    ∧ (sendState .waitTc 5 [.rxByte 3, .advance, .tick, .poll, .collabWrite 11 1]).frameReady = true
    ∧ (sendState .waitTc 5 [.rxByte 3, .advance, .tick, .poll, .collabWrite 11 1]).de = true
    ∧ ∀ e ∈ (sendState .waitTc 5 [.rxByte 3, .advance, .tick, .poll, .collabWrite 11 1]).events,
        e ≠ .tc ∧ e ≠ .reset := by decide

theorem witness_AnAnsweredFrameOnTheWire : (sendState .guardPre 0 (sendingSchedule 5)).cfg.legal = true
    ∧ (sendState .guardPre 0 (sendingSchedule 5)).phase = .guardPre ∧ (sendState .guardPre 0 (sendingSchedule 5)).txIdx = 0
    ∧ (sendState .guardPre 0 (sendingSchedule 5)).respLen ≤ 255
    ∧ (sendState .guardPre 0 (sendingSchedule 5)).events = sendingSchedule 5 ++ [] := by decide

theorem witness_ATimedOutFrameOnTheWire :
    ({ sendState .guardPre 0 (timeoutSchedule 5) with cfg := buildTimeout } : State).cfg.legal = true
    ∧ ({ sendState .guardPre 0 (timeoutSchedule 5) with cfg := buildTimeout } : State).cfg.tcTimeout ≠ none
    ∧ ({ sendState .guardPre 0 (timeoutSchedule 5) with cfg := buildTimeout } : State).phase = .guardPre
    ∧ ({ sendState .guardPre 0 (timeoutSchedule 5) with cfg := buildTimeout } : State).txIdx = 0
    ∧ ({ sendState .guardPre 0 (timeoutSchedule 5) with cfg := buildTimeout } : State).respLen ≤ 255
    ∧ ({ sendState .guardPre 0 (timeoutSchedule 5) with cfg := buildTimeout } : State).events
      = timeoutSchedule 5 ++ [] := by decide

/-- V67: an exception response. -/
theorem witness_SlaveFailureIsNeverRaised : State.reset.resp.wf = true
    ∧ ∃ t, exec (.rhr 3 0 0 []) State.reset = .next t ∧ (t.respLen == 5) = true :=
  ⟨by decide, exists_of_leads (by decide +kernel)⟩

/-- A step of another agent while an access waits, and an access carried out in P_IDLE. -/
theorem witness_NoCollaboratorAccessIsLost :
    (∃ t, Inv { sendState .send 4 [.sendByte, .collabRead 3] with delayed := [.write 11 1] }
      ∧ step { sendState .send 4 [.sendByte, .collabRead 3] with delayed := [.write 11 1] } = .next t)
    ∧ (∃ t, Inv (idleState [.collabWrite 15 1]) ∧ step (idleState [.collabWrite 15 1]) = .next t
      ∧ (t.x != []) = true) := by
  obtain ⟨t, h, -⟩ := exists_of_leads
    (o := step { sendState .send 4 [.sendByte, .collabRead 3] with delayed := [.write 11 1] }) (p := fun _ => true)
    (by decide +kernel)
  obtain ⟨u, h', hx⟩ := exists_of_leads (o := step (idleState [.collabWrite 15 1])) (p := fun t => t.x != [])
    (by decide +kernel)
  exact ⟨⟨t, by constructor <;> decide +kernel, h⟩, ⟨u, by constructor <;> decide +kernel, h', hx⟩⟩

/-- A write to the last register, before GuardPre and just before Clear. -/
theorem witness_ADelayedWriteFollowsTheResponse : ∃ s s' : State,
    s = sendState .guardPre 0 (.collabWrite 15 1 :: sendingSchedule 5)
    ∧ s' = sendState .guardPre 0 ((sendingSchedule 5).dropLast ++ [.collabWrite 15 1, .clear])
    ∧ (s.cfg.legal = true ∧ s.x.wf = true ∧ s.phase = .guardPre ∧ s.txIdx = 0 ∧ s.respLen ≤ 255 ∧ s.delayed = []
      ∧ 15 < s.cfg.regCount ∧ [] ++ sendingSchedule 5 = sendingSchedule s.respLen ∧ sendingSchedule 5 ≠ []
      ∧ s.events = [] ++ .collabWrite 15 1 :: sendingSchedule 5 ++ [])
    ∧ (s'.phase = .guardPre ∧ (sendingSchedule 5).dropLast ++ [.clear] = sendingSchedule s'.respLen
      ∧ s'.events = (sendingSchedule 5).dropLast ++ .collabWrite 15 1 :: [.clear] ++ []) :=
  ⟨_, _, rfl, rfl, by decide, by decide⟩

end Sys2Proof.Tests
end

/-! The direction line `de` (R35): what each step makes of it, and that only the transmitter's steps and reset change it. -/

namespace Sys2Proof.Machine

/-! ### the process step leaves the line -/

@[simp] theorem finishProcess_de (addr : Byte) (s : State) : (finishProcess addr s).de = s.de := by
  simp [finishProcess]

@[simp] theorem dropFrame_de (s : State) : (dropFrame s).de = s.de := by simp [dropFrame]

@[simp] theorem requestEffect_de (i : Instr) (s : State) : (requestEffect i s).de = s.de := by
  rw [requestEffect_fields]

theorem exec_de {i : Instr} {s t : State} (h : exec i s = .next t) : t.de = s.de := by
  rw [exec_eq] at h
  cases h
  simp

/-- Everything a process step that answers can do: drop the frame, or run the instruction it decodes to (R153, R150). -/
theorem process_cases {s t : State} (h : process s = .next t) :
    t = dropFrame s ∨ ∃ i, decode (frameBytes s) = .ok i ∧ exec i s = .next t := by
  unfold process at h
  split at h
  · cases h
  · split at h
    · cases h
      exact .inl rfl
    · split at h
      · cases h
        exact .inl rfl
      · exact .inr ⟨_, ‹_›, h⟩

theorem process_de {s t : State} (h : process s = .next t) : t.de = s.de := by
  obtain rfl | ⟨i, -, hexec⟩ := process_cases h
  · exact dropFrame_de s
  · exact exec_de hexec

/-- A poll is the process step in P_IDLE with a frame ready, and nothing otherwise (R145). -/
theorem poll_cases {s t : State} (h : poll s = .next t) :
    (s.phase = .idle ∧ s.frameReady = true ∧ process s = .next t) ∨ t = s := by
  unfold poll at h
  split at h
  · rename_i hdue
    exact .inl ⟨hdue.1, hdue.2, h⟩
  · cases h
    exact .inr rfl

theorem poll_de {s t : State} (h : poll s = .next t) : t.de = s.de := by
  obtain ⟨-, -, hproc⟩ | rfl := poll_cases h
  · exact process_de hproc
  · rfl

/-! ### the other steps that leave the line -/

@[simp] theorem rxByte_de (b : Byte) (s : State) : (rxByte b s).de = s.de := by unfold rxByte; split <;> simp

@[simp] theorem tick_de (s : State) : (tick s).de = s.de := by rw [tick_eq]

@[simp] theorem rxByteWithTick_de (b : Byte) (s : State) : (rxByteWithTick b s).de = s.de := rfl

@[simp] theorem collabRead_de (a : Nat) (s : State) : (collabRead a s).de = s.de := by
  unfold collabRead; split <;> simp

@[simp] theorem collabWrite_de (a : Nat) (v : Half) (s : State) : (collabWrite a v s).de = s.de := by
  unfold collabWrite
  split
  · split <;> simp
  · simp

@[simp] theorem clearStep_de (s : State) : (clearStep s).de = s.de := by unfold clearStep; split <;> simp

@[simp] theorem sendDone_de (s : State) : (sendDone s).de = s.de := by unfold sendDone; split <;> rfl

@[simp] theorem tc_de (s : State) : (tc s).de = s.de := by unfold tc; split <;> rfl

theorem sendByte_de {s t : State} (h : sendByte s = .next t) : t.de = s.de := by
  unfold sendByte at h
  split at h
  · split at h
    · cases h
      rfl
    · cases h
  · cases h
    rfl

/-! ### the steps that turn the line -/

theorem guardPre_de (s : State) : (guardPre s).de = if s.phase = .guardPre then true else s.de := by
  unfold guardPre; split <;> rfl

theorem guardPost_de (s : State) : (guardPost s).de = if s.phase = .guardPost then false else s.de := by
  unfold guardPost; split <;> rfl

theorem tcTimeout_de (s : State) :
    (tcTimeout s).de = if s.phase = .waitTc ∧ s.cfg.tcTimeout.isSome = true then false else s.de := by
  unfold tcTimeout; split <;> rfl

@[simp] theorem resetStep_de (s : State) : (resetStep s).de = false := rfl

/-! ### R35 -/

/-- The event `e`, taken in the phase `p`, is one that brings the line to `level`: GuardPre raises it, GuardPost, the
timeout and reset lower it (R35, R201, R206, R207, R260). -/
def TurnsLine (e : Event) (p : Phase) (level : Bool) : Prop :=
  (level = true ∧ e = .guardPre ∧ p = .guardPre)
    ∨ (level = false ∧ (e = .guardPost ∧ p = .guardPost ∨ e = .tcTimeout ∧ p = .waitTc ∨ e = .reset))

/-- An event that changes the line is one of the four that turn it, in the phase where it is enabled. -/
theorem turnsLine_of_de_ne {e : Event} {s t : State} (h : runEvent e s = .next t) (hde : t.de ≠ s.de) :
    TurnsLine e s.phase t.de := by
  cases e with
  | poll => exact absurd (poll_de h) hde
  | sendByte => exact absurd (sendByte_de h) hde
  | guardPre =>
    cases h
    by_cases hp : s.phase = .guardPre
    · exact .inl ⟨by rw [guardPre_de, if_pos hp], rfl, hp⟩
    · exact absurd (by rw [guardPre_de, if_neg hp]) hde
  | guardPost =>
    cases h
    by_cases hp : s.phase = .guardPost
    · exact .inr ⟨by rw [guardPost_de, if_pos hp], .inl ⟨rfl, hp⟩⟩
    · exact absurd (by rw [guardPost_de, if_neg hp]) hde
  | tcTimeout =>
    cases h
    by_cases hp : s.phase = .waitTc ∧ s.cfg.tcTimeout.isSome = true
    · exact .inr ⟨by rw [tcTimeout_de, if_pos hp], .inr (.inl ⟨rfl, hp.1⟩)⟩
    · exact absurd (by rw [tcTimeout_de, if_neg hp]) hde
  | reset =>
    cases h
    exact .inr ⟨resetStep_de s, .inr (.inr rfl)⟩
  | _ =>
    cases h
    exact absurd (by simp) hde

/-- Settles O8: at reset the line is in receive, and a step that changes it is the step of an event that turns it. -/
theorem onlyTheTransmitterTurnsTheLine : Obligations.OnlyTheTransmitterTurnsTheLine := by
  refine ⟨fun _ => rfl, fun s t h hde => ?_⟩
  obtain ⟨-, ⟨e, evs, hnext, hrun⟩ | ⟨-, rfl⟩⟩ := step_cases h
  · rw [hnext]
    simpa [TurnsLine] using turnsLine_of_de_ne hrun hde
  · exact absurd rfl hde

end Sys2Proof.Machine

/-! The bounds of the two buffers (R60): where an arriving byte may be stored, and which cells a response may cover. -/

namespace Sys2Proof.Machine

/-! ### an arriving byte and the frame buffer -/

/-- An arriving byte is written at the write index, or nowhere: while a frame is ready, or the buffer is full
(R126 to R128). -/
theorem rxByte_buf (b : Byte) (s : State) :
    (rxByte b s).buf = if s.frameReady = false ∧ s.rxIndex < 256 then s.buf.write s.rxIndex b else s.buf := by
  unfold rxByte storeByte
  cases s.frameReady
  · by_cases hroom : s.rxIndex < 256 <;> simp [hroom]
  · simp

/-- An arriving byte leaves every cell but the one at the write index, which is in the buffer. -/
theorem eq_rxIndex_of_rxByte_read_ne {b : Byte} {s : State} {a : Nat} (hwf : s.buf.wf = true)
    (hne : (rxByte b s).buf.read a ≠ s.buf.read a) : a = s.rxIndex ∧ a < 256 := by
  rw [rxByte_buf] at hne
  split at hne
  next hstored =>
    have ha : a = s.rxIndex := by
      by_contra hother
      exact hne (by rw [Memory.read_write hwf, if_neg hother])
    exact ⟨ha, ha ▸ hstored.2⟩
  next => exact absurd rfl hne

/-- A full buffer is left as it is (R128). -/
theorem rxByte_buf_of_full {b : Byte} {s : State} (hfull : s.rxIndex = 256) : (rxByte b s).buf = s.buf := by
  rw [rxByte_buf, if_neg (by omega)]

/-! ### a request and the response buffer -/

@[simp] theorem finishProcess_resp (addr : Byte) (s : State) : (finishProcess addr s).resp = s.resp := by
  simp [finishProcess]

@[simp] theorem requestEffect_resp (i : Instr) (s : State) : (requestEffect i s).resp = s.resp := by
  rw [requestEffect_fields]

/-- The end of the process step keeps a response's length or makes it 0 (R154, R155). -/
theorem finishProcess_respLen_le (addr : Byte) (s : State) : (finishProcess addr s).respLen ≤ s.respLen := by
  rw [finishProcess, endProcess_respLen, suppressBroadcast_respLen]
  split
  · exact Nat.zero_le _
  · exact Nat.le_refl _

/-- A request leaves at most the response it builds (R176, R185, R228). -/
theorem exec_respLen_le {i : Instr} {s t : State} (h : exec i s = .next t) :
    t.respLen ≤ responseLength s.cfg i := by
  rw [exec_eq] at h
  cases h
  calc (finishProcess (addressByte i) (loadResponse (requestBody i s) (requestEffect i s))).respLen
      ≤ (loadResponse (requestBody i s) (requestEffect i s)).respLen := finishProcess_respLen_le _ _
    _ = (requestBody i s).length + 2 := by simp
    _ = responseLength s.cfg i := length_requestBody i s

/-- A request writes no cell after the response it builds, sent or suppressed. -/
theorem exec_resp_read_of_le {i : Instr} {s t : State} (hwf : s.resp.wf = true) (h : exec i s = .next t) {a : Nat}
    (ha : responseLength s.cfg i ≤ a) : t.resp.read a = s.resp.read a := by
  rw [← length_requestBody i s] at ha
  rw [exec_eq] at h
  cases h
  rw [finishProcess_resp, read_loadResponse (by simpa using hwf), if_neg (Nat.not_lt.mpr ha), requestEffect_resp]

/-- Settles O49: a byte is stored at the write index below 256 or nowhere, and a request writes only the cells of its
response, of at most 255 bytes. -/
theorem bufferAccessesStayInBounds : Obligations.BufferAccessesStayInBounds := by
  refine ⟨fun s b a => eq_rxIndex_of_rxByte_read_ne, fun s b => rxByte_buf_of_full, fun i s t hwf h => ?_⟩
  have hlen : responseLength s.cfg i ≤ 255 := (responseLength_bounds s.cfg i).2
  exact ⟨(exec_respLen_le h).trans hlen, fun a ha => exec_resp_read_of_le hwf h (hlen.trans ha)⟩

end Sys2Proof.Machine

/-! The table of function-code rows (R90): which row a function byte selects, and what the decoder makes of it. -/

namespace Sys2Proof.Machine

/-- The ten cubes of the table part the 256 function bytes: no byte is left out and none lies in two of them. -/
theorem length_filter_rowSelects :
    ∀ fc : Byte, (opcodeRows.filter fun r => rowSelects r fc).length = 1 := by decide

/-- Function 0x03 with its four bytes is a register read of the two big-endian values; what follows is kept (R87, R94). -/
theorem decodeBody_rhr (a b2 b3 b4 b5 : Byte) (e : List Byte) :
    decodeBody a 0x03#8 (b2 :: b3 :: b4 :: b5 :: e) = .ok (.rhr a (bigEndian b2 b3) (bigEndian b4 b5) e) := rfl

/-- Function 0x06 with its four bytes is a register write of the two big-endian values; what follows is kept (R87, R94). -/
theorem decodeBody_wsr (a b2 b3 b4 b5 : Byte) (e : List Byte) :
    decodeBody a 0x06#8 (b2 :: b3 :: b4 :: b5 :: e) = .ok (.wsr a (bigEndian b2 b3) (bigEndian b4 b5) e) := rfl

/-- The rows' lemmas, gathered: an instruction's own row selects its function byte (R90). -/
theorem rowOf_selects_functionByte (i : Instr) : rowSelects (rowOf i) (functionByte i) = true := by
  have hrow : Laws.RowMatch.Statement i := by
    cases i with
    | rhr a s q e => exact Laws.RowMatch.rhr a s q e
    | wsr a r v e => exact Laws.RowMatch.wsr a r v e
    | illfn80 a f p => exact Laws.RowMatch.illfn80 a f p
    | illfn40 a f p => exact Laws.RowMatch.illfn40 a f p
    | illfn20 a f p => exact Laws.RowMatch.illfn20 a f p
    | illfn10 a f p => exact Laws.RowMatch.illfn10 a f p
    | illfn08 a f p => exact Laws.RowMatch.illfn08 a f p
    | illfn00 a f p => exact Laws.RowMatch.illfn00 a f p
    | illfn02 a p => exact Laws.RowMatch.illfn02 a p
    | illfn07 a p => exact Laws.RowMatch.illfn07 a p
  obtain ⟨-, hselects, -⟩ := hrow
  exact hselects

/-- Settles O14: the rows part the function bytes, 0x03 and 0x06 decode to their requests, and any other byte decodes to
the instruction whose function byte it is, which that instruction's own row selects. -/
theorem everyFunctionByteSelectsOneRow : Obligations.EveryFunctionByteSelectsOneRow := by
  refine ⟨length_filter_rowSelects, fun a b2 b3 b4 b5 e => ⟨_, _, decodeBody_rhr a b2 b3 b4 b5 e⟩,
    fun a b2 b3 b4 b5 e => ⟨_, _, decodeBody_wsr a b2 b3 b4 b5 e⟩, fun a fc p h3 h6 => ?_⟩
  have hdecode : decodeBody a fc p = .ok (decodeUnsupported a fc p) := decodeBody_unsupported ⟨h3, h6⟩ a p
  have hfc : functionByte (decodeUnsupported a fc p) = fc := functionByte_decodeUnsupported a fc p h3 h6
  have hselects : rowSelects (rowOf (decodeUnsupported a fc p)) fc = true := by
    simpa only [hfc] using rowOf_selects_functionByte (decodeUnsupported a fc p)
  obtain ⟨haddr, hpayload, hrow, -⟩ := decodeUnsupported_fields a fc p
  exact ⟨_, hdecode, hfc, hselects, hrow, haddr, hpayload⟩

end Sys2Proof.Machine

/-! The frame receiver (R124 to R135): what an arriving byte stores, what a tick writes, the source's timing scenario. -/

namespace Sys2Proof.Machine

/-! ### an arriving byte -/

/-- With no frame ready and room in the buffer, a byte goes to the write index and takes the timestamp (R126). -/
theorem rxByte_of_room {s : State} (hidle : s.frameReady = false) (hroom : s.rxIndex < 256) (b : Byte) :
    rxByte b s = { s with buf := s.buf.write s.rxIndex b, rxIndex := s.rxIndex + 1, lastRxTime := s.now } := by
  have hstore : storeByte b s = { s with buf := s.buf.write s.rxIndex b, rxIndex := s.rxIndex + 1 } := if_pos hroom
  rw [rxByte, if_neg (by simp [hidle]), hstore]

/-- Settles O22: the step stores the byte at the write index, and reading after that write gives every cell. -/
theorem anArrivingByteIsStored : Obligations.AnArrivingByteIsStored := by
  intro s b rest hlegal hevents hwf hidle hroom
  have hstep : step s = .next { s with
      events := rest, buf := s.buf.write s.rxIndex b, rxIndex := s.rxIndex + 1, lastRxTime := s.now } :=
    (step_event hlegal hevents).trans
      (congrArg Host.Outcome.next (rxByte_of_room (s := { s with events := rest }) hidle hroom b))
  exact ⟨_, hstep, fun a => Memory.read_write hwf s.rxIndex a b, rfl⟩

/-! ### the silence timer -/

/-- Settles O24: the step is the tick's, and `tick_eq` says everything a tick does. -/
theorem aTickSealsTheFrameAfterSilence : Obligations.ATickSealsTheFrameAfterSilence := by
  intro s rest hlegal hevents
  exact (step_event hlegal hevents).trans (congrArg Host.Outcome.next (tick_eq _))

/-- Before 5 ms of silence a tick does nothing (R130). -/
theorem tick_of_not_silent {s : State} (hnot : silenceReached s = false) : tick s = s := if_neg (by simp [hnot])

/-- After 5 ms of silence a tick makes the bytes received so far the frame (R130). -/
theorem tick_of_silent {s : State} (hidle : s.frameReady = false) (hbytes : 0 < s.rxIndex)
    (hsilent : silenceReached s = true) : tick s = { s with frameReady := true } :=
  if_pos (by simp [hidle, hbytes, hsilent])

/-- `k` milliseconds of silence and a tick (R125, R130). -/
theorem runSteps_silence_tick {k : Nat} {s : State} (hlegal : s.cfg.legal = true)
    (hevents : s.events = List.replicate k .advance ++ [.tick]) :
    runSteps (k + 1) s = .next (tick { s with events := [], now := s.now + BitVec.ofNat 32 k }) := by
  induction k generalizing s with
  | zero =>
    rw [BitVec.add_zero]
    exact runSteps_event hlegal hevents rfl (runSteps_zero _)
  | succ k ih =>
    have hnow : s.now + 1#32 + BitVec.ofNat 32 k = s.now + BitVec.ofNat 32 (k + 1) := by
      rw [BitVec.add_assoc, Nat.add_comm k 1, BitVec.ofNat_add]
    rw [← hnow]
    exact runSteps_event hlegal hevents rfl
      (ih (s := advance { s with events := List.replicate k .advance ++ [.tick] }) hlegal rfl)

/-! ### the source's scenario (R135) -/

/-- The reset state after the bytes `b0`, `b1`, `b2` at 0, 1 and 2 ms, at the time `now`. -/
def threeBytesAt (cfg : Config) (b0 b1 b2 : Byte) (now : Time) : State :=
  { State.resetFor cfg with
    buf := Memory.writeList [] 0 [b0, b1, b2], rxIndex := 3, lastRxTime := 2#32, now := now }

/-- The three bytes and the two milliseconds between them lead there (R125, R126). -/
theorem runSteps_threeBytes {cfg : Config} (hlegal : cfg.legal = true) (b0 b1 b2 : Byte) (rest : List Event) (n : Nat) :
    runSteps (n + 5) { State.resetFor cfg with
        events := [.rxByte b0, .advance, .rxByte b1, .advance, .rxByte b2] ++ rest }
      = runSteps n { threeBytesAt cfg b0 b1 b2 2#32 with events := rest } :=
  runSteps_event hlegal rfl rfl <| runSteps_event hlegal rfl rfl <| runSteps_event hlegal rfl rfl <|
    runSteps_event hlegal rfl rfl <| runSteps_event hlegal rfl rfl rfl

/-- Their silence began at 2 ms (R130). -/
theorem silenceReached_threeBytesAt (cfg : Config) (b0 b1 b2 : Byte) (now : Time) :
    silenceReached (threeBytesAt cfg b0 b1 b2 now) = decide (5#32 ≤ now - 2#32) := rfl

/-- `k` milliseconds later comes a tick, with no byte in between. -/
theorem runSteps_threeBytesAt {cfg : Config} (hlegal : cfg.legal = true) (b0 b1 b2 : Byte) (now : Time) (k : Nat) :
    runSteps (k + 1) { threeBytesAt cfg b0 b1 b2 now with events := List.replicate k .advance ++ [.tick] }
      = .next (tick (threeBytesAt cfg b0 b1 b2 (now + BitVec.ofNat 32 k))) :=
  runSteps_silence_tick hlegal rfl

/-- Settles O26: 2 ms and 4 ms after the last byte the tick does nothing; 5 ms after it, the tick makes the three bytes
the frame. -/
theorem theTimingScenarioOfTheSource : Obligations.TheTimingScenarioOfTheSource := by
  intro cfg b0 b1 b2 hlegal
  have tick4 : tick (threeBytesAt cfg b0 b1 b2 4#32) = threeBytesAt cfg b0 b1 b2 4#32 :=
    tick_of_not_silent ((silenceReached_threeBytesAt ..).trans (by decide))
  have tick6 : tick (threeBytesAt cfg b0 b1 b2 6#32) = threeBytesAt cfg b0 b1 b2 6#32 :=
    tick_of_not_silent ((silenceReached_threeBytesAt ..).trans (by decide))
  have tick7 : tick (threeBytesAt cfg b0 b1 b2 7#32) = { threeBytesAt cfg b0 b1 b2 7#32 with frameReady := true } :=
    tick_of_silent rfl (Nat.succ_pos 2) ((silenceReached_threeBytesAt ..).trans (by decide))
  have run4 := (runSteps_threeBytes hlegal b0 b1 b2 [.advance, .advance, .tick] 3).trans
    ((runSteps_threeBytesAt hlegal b0 b1 b2 2#32 2).trans (congrArg Host.Outcome.next tick4))
  have run6 := (runSteps_threeBytesAt hlegal b0 b1 b2 4#32 2).trans (congrArg Host.Outcome.next tick6)
  have run7 := (runSteps_threeBytesAt hlegal b0 b1 b2 4#32 3).trans (congrArg Host.Outcome.next tick7)
  have hframe : (threeBytesAt cfg b0 b1 b2 7#32).buf.readList 0 3 = [b0, b1, b2] :=
    Memory.readList_writeList rfl 0 [b0, b1, b2]
  exact ⟨_, _, _, run4, rfl, rfl, rfl, rfl, run6, rfl, rfl, run7, rfl, rfl, hframe⟩

end Sys2Proof.Machine

/-! The frame processor (R145 to R160): when a poll runs it, which frames its gates drop, what broadcast and unsupported
function bytes come to. -/

namespace Sys2Proof.Machine

/-! ### the poll (R145) -/

theorem poll_of_not_due {s : State} (h : s.phase ≠ .idle ∨ s.frameReady = false) : poll s = .next s :=
  if_neg fun ⟨hphase, hready⟩ => h.elim (absurd hphase) (by simp [hready])

/-- Settles O31: the step is the poll's, which is the process step or nothing. -/
theorem aPollProcessesOnlyAReadyFrame : Obligations.APollProcessesOnlyAReadyFrame := by
  intro s rest hlegal hevents
  have hstep : step s = poll { s with events := rest } := step_event hlegal hevents
  exact ⟨fun ⟨hphase, hready⟩ => hstep.trans (poll_due hphase hready), fun hnot => hstep.trans (poll_of_not_due hnot)⟩

/-- When the poll of a received frame is due, the next step is the process step. -/
theorem PollDue.step_eq {s : State} {rest : List Event} (h : PollDue s rest) :
    step s = process { s with events := rest } := by
  obtain ⟨hlegal, hevents, hphase, hready, -⟩ := h
  exact (aPollProcessesOnlyAReadyFrame s rest hlegal hevents).1 ⟨hphase, hready⟩

/-! ### the gates (R147 to R149) -/

/-- The three gates as conditions on the bytes of the buffer. -/
theorem pseudoGates_iff (s : State) : pseudoGates s = true ↔
    4 ≤ s.rxIndex ∧ (s.buf.read 0 = s.slaveAddr ∨ s.buf.read 0 = 0x00#8)
      ∧ (crc16 (s.buf.readList 0 (s.rxIndex - 2))).toNat
          = (s.buf.read (s.rxIndex - 2)).toNat + 256 * (s.buf.read (s.rxIndex - 1)).toNat := by
  simp [pseudoGates, and_assoc]

/-- Settles O35: each of the three conditions closes its gate, and `process_drop` says everything a drop does. -/
theorem framesThatFailAGateAreDroppedSilently : Obligations.FramesThatFailAGateAreDroppedSilently := by
  intro s rest hdue hfail
  have hstep := hdue.step_eq
  obtain ⟨-, -, -, -, hbound⟩ := hdue
  have hclosed : pseudoGates s = false := by
    rw [← Bool.not_eq_true, pseudoGates_iff]
    rintro ⟨hlen, haddr, hcrc⟩
    obtain hshort | ⟨hown, hall⟩ | htrailer := hfail
    · exact absurd hshort (Nat.not_lt.mpr hlen)
    · exact haddr.elim hown hall
    · exact htrailer hcrc
  exact ⟨_, hstep.trans (process_drop hbound hclosed), rfl⟩

/-! ### broadcast (R154) -/

/-- What is in the store and on the trace after a request is what its effect made of them. -/
theorem requestEffect_of_exec {i : Instr} {s t : State} (h : exec i s = .next t) :
    requestEffect i s = { s with x := t.x, trace := t.trace } := by
  rw [exec_eq] at h
  cases h
  simpa [finishProcess] using requestEffect_fields i s

/-- A write to an existing register stores the value and notifies the hook (R184, R186). -/
theorem requestEffect_wsr {r : Half} {s : State} (h : r.toNat < s.cfg.regCount) (a : Byte) (v : Half) (e : List Byte) :
    requestEffect (.wsr a r v e) s = { s with x := s.x.write r.toNat v, trace := s.trace ++ hookTrace s.cfg r v } := by
  have hlegal : addressLegal s.cfg r.toNat = true := decide_eq_true h
  rw [requestEffect, if_pos hlegal, notifyHook_eq]
  rfl

/-- Whatever a broadcast request does to the store and the trace, its response is suppressed. -/
theorem staysSilent_of_broadcast {i : Instr} {s t : State} (hwf : s.resp.wf = true) (haddr : addressByte i = 0x00#8)
    (h : exec i s = .next t) : StaysSilent { s with x := t.x, trace := t.trace } t (responseLength s.cfg i) := by
  rw [← requestEffect_of_exec h, ← length_requestBody i s]
  rw [exec_eq] at h
  cases h
  exact silent_finish (by simpa using hwf) haddr (requestBody i s)

/-- Settles O40: the response is suppressed, and the store and the trace are those of the request's effect. -/
theorem broadcastIsNeverAnswered : Obligations.BroadcastIsNeverAnswered := by
  intro i s hx hresp haddr
  obtain ⟨t, hexec⟩ : ∃ t, exec i s = .next t := ⟨_, exec_eq i s⟩
  have heffect := requestEffect_of_exec hexec
  refine ⟨t, hexec, staysSilent_of_broadcast hresp haddr hexec, ?_, fun hnot => ?_⟩
  · rintro a r v e rfl hr
    rw [requestEffect_wsr hr] at heffect
    have hstore : s.x.write r.toNat v = t.x := congrArg State.x heffect
    have htrace : s.trace ++ hookTrace s.cfg r v = t.trace := congrArg State.trace heffect
    exact ⟨fun k => hstore ▸ Memory.read_write hx r.toNat k v, htrace.symm⟩
  · rw [requestEffect_of_not_writes hnot] at heffect
    exact ⟨(congrArg State.x heffect).symm, (congrArg State.trace heffect).symm⟩

/-! ### unsupported function bytes (R152) -/

/-- An unsupported request is answered with ILLEGAL_FUNCTION unless it is a broadcast (R152, R228). -/
theorem rejectFunction_answers {s : State} (h : s.resp.wf = true) {addr : Byte} (ha : addr ≠ 0x00#8) (fc : Byte) :
    Answers s (rejectFunction addr fc s) (withCrc [s.slaveAddr, fc ||| 0x80#8, 0x01#8]) := answers_finish h ha _

/-- On broadcast the five bytes of that response are suppressed (R154). -/
theorem rejectFunction_silent {s : State} (h : s.resp.wf = true) {addr : Byte} (ha : addr = 0x00#8) (fc : Byte) :
    StaysSilent s (rejectFunction addr fc s) 5 := silent_finish h ha _

/-- Settles O41: the eight rows are one rejection, whose response is sent, or suppressed on broadcast. -/
theorem unsupportedFunctionsAreAnswered : Obligations.UnsupportedFunctionsAreAnswered := by
  intro s a p i hwf hrow
  have hexec : exec i s = .next (rejectFunction a (functionByte i) s) := by
    obtain ⟨f, rfl⟩ | ⟨f, rfl⟩ | ⟨f, rfl⟩ | ⟨f, rfl⟩ | ⟨f, rfl⟩ | ⟨f, rfl⟩ | rfl | rfl := hrow <;> rfl
  exact ⟨_, hexec, fun ha => rejectFunction_answers hwf ha _, fun ha => rejectFunction_silent hwf ha _⟩

end Sys2Proof.Machine

/-! The function handlers (R170 to R189): the response of a read, and the two rejections that change nothing else. -/

namespace Sys2Proof.Machine

/-- A request to this slave that writes no register is answered with its response, and nothing else changes (R155). -/
theorem exec_answers_of_not_writes {i : Instr} {s : State} (hwf : s.resp.wf = true) (haddr : addressByte i ≠ 0x00#8)
    (hnot : writesRegister s.cfg i = false) :
    ∃ t, exec i s = .next t ∧ Answers s t (withCrc (requestBody i s)) := by
  refine ⟨_, exec_eq i s, ?_⟩
  rw [requestEffect_of_not_writes hnot]
  exact answers_finish hwf haddr _

/-! ### Read Holding Registers (R172, R175) -/

/-- The response to a legal read within the store, in integers (R175). -/
theorem requestBody_rhr_of_legal {s : State} {start qty : Half} (hlow : 1 ≤ qty.toNat) (hhigh : qty.toNat ≤ 125)
    (hrange : start.toNat + qty.toNat ≤ s.cfg.regCount) (a : Byte) (e : List Byte) :
    requestBody (.rhr a start qty e) s = s.slaveAddr :: 0x03#8 :: BitVec.ofNat 8 (2 * qty.toNat) ::
      (List.range qty.toNat).flatMap fun k =>
        [BitVec.ofNat 8 ((s.x.read (start.toNat + k)).toNat / 256),
         BitVec.ofNat 8 ((s.x.read (start.toNat + k)).toNat % 256)] := by
  have hquantity : quantityLegal qty = true := (quantityLegal_iff qty).mpr ⟨hlow, hhigh⟩
  have hlegal : rangeLegal s.cfg start qty = true := decide_eq_true hrange
  rw [requestBody, if_pos hquantity, if_pos hlegal, lo8_double, registerValues, flatMap_readList]

/-- The quantity is tested before the range, so the start address does not matter (R172). -/
theorem requestBody_rhr_of_illegal_quantity {qty : Half} (h : qty.toNat = 0 ∨ 125 < qty.toNat) (a : Byte)
    (start : Half) (e : List Byte) (s : State) :
    requestBody (.rhr a start qty e) s = [s.slaveAddr, 0x83#8, 0x03#8] := by
  have hquantity : ¬ quantityLegal qty = true := by
    rw [quantityLegal_iff]
    omega
  rw [requestBody, if_neg hquantity]

/-- Settles O43: a read writes no register, and its response is the one of a legal read. -/
theorem aReadAnswersTheRegisters : Obligations.AReadAnswersTheRegisters := by
  intro s a start qty e hwf ha hlow hhigh hrange
  rw [← requestBody_rhr_of_legal hlow hhigh hrange a e]
  exact exec_answers_of_not_writes hwf ha rfl

/-- Settles O44: a read writes no register, and its response is ILLEGAL_VALUE before the address is looked at. -/
theorem aReadOfAnIllegalQuantityIsRejected : Obligations.AReadOfAnIllegalQuantityIsRejected := by
  intro s a start qty e hwf ha hqty
  rw [← requestBody_rhr_of_illegal_quantity hqty a start e s]
  exact exec_answers_of_not_writes hwf ha rfl

/-! ### Write Single Register (R183) -/

/-- A write past the store is ILLEGAL_ADDRESS (R183). -/
theorem requestBody_wsr_of_past_store {s : State} {reg : Half} (h : s.cfg.regCount ≤ reg.toNat) (a : Byte)
    (value : Half) (e : List Byte) : requestBody (.wsr a reg value e) s = [s.slaveAddr, 0x86#8, 0x02#8] := by
  have hlegal : ¬ addressLegal s.cfg reg.toNat = true := by simpa [addressLegal] using h
  rw [requestBody, if_neg hlegal]

/-- Settles O47: such a write is no write to an existing register, so neither the store nor the trace changes, and its
response is ILLEGAL_ADDRESS. -/
theorem aWritePastTheStoreIsRejected : Obligations.AWritePastTheStoreIsRejected := by
  intro s a reg value e hwf ha hpast
  have hnot : writesRegister s.cfg (.wsr a reg value e) = false := decide_eq_false (Nat.not_lt.mpr hpast)
  rw [← requestBody_wsr_of_past_store hpast a value e]
  exact exec_answers_of_not_writes hwf ha hnot

end Sys2Proof.Machine

/-! The transmitter's wait for transmission complete (R205). -/

namespace Sys2Proof.Machine

/-- Everything `Tc` does: it moves the phase on from P_WAIT_TC (R205). -/
theorem tc_eq (s : State) : tc s = { s with phase := if s.phase = .waitTc then .guardPost else s.phase } := by
  unfold tc
  split <;> rfl

/-- Settles O51: the step is the event's, and `tc_eq` says everything it does. -/
theorem transmissionCompleteEndsTheWait : Obligations.TransmissionCompleteEndsTheWait := by
  intro s rest hlegal hevents
  exact (step_event hlegal hevents).trans (congrArg Host.Outcome.next (tc_eq _))

end Sys2Proof.Machine

/-! Decoding and encoding (R80 to R97): the decoder and the encoder are inverse to each other, field by field. -/

namespace Sys2Proof.Machine

/-! ### decode after encode -/

/-- An unsupported function byte, made from its row's free bits, selects that row again, and the row's free bits are
read back (R90). -/
theorem decodeUnsupported_functionByte {i : Instr} (h3 : functionByte i ≠ 0x03#8) (h6 : functionByte i ≠ 0x06#8) :
    decodeUnsupported (addressByte i) (functionByte i) (payloadBytes i) = i := by
  cases i with
  | rhr a s q e => exact absurd rfl h3
  | wsr a r v e => exact absurd rfl h6
  | illfn80 a f p =>
    have hbits : ∀ g : BitVec 7, BitVec.getLsbD (w := 8) (1#1 ++ g) 7 = true
        ∧ BitVec.extractLsb' (n := 8) 0 7 (1#1 ++ g) = g := by decide
    simp [decodeUnsupported, functionByte, addressByte, payloadBytes, -BitVec.getLsbD_eq_getElem, hbits f]
  | illfn40 a f p =>
    have hbits : ∀ g : BitVec 6, BitVec.getLsbD (w := 8) (1#2 ++ g) 7 = false
        ∧ BitVec.getLsbD (w := 8) (1#2 ++ g) 6 = true ∧ BitVec.extractLsb' (n := 8) 0 6 (1#2 ++ g) = g := by decide
    simp [decodeUnsupported, functionByte, addressByte, payloadBytes, -BitVec.getLsbD_eq_getElem, hbits f]
  | illfn20 a f p =>
    have hbits : ∀ g : BitVec 5, BitVec.getLsbD (w := 8) (1#3 ++ g) 7 = false
        ∧ BitVec.getLsbD (w := 8) (1#3 ++ g) 6 = false ∧ BitVec.getLsbD (w := 8) (1#3 ++ g) 5 = true
        ∧ BitVec.extractLsb' (n := 8) 0 5 (1#3 ++ g) = g := by decide
    simp [decodeUnsupported, functionByte, addressByte, payloadBytes, -BitVec.getLsbD_eq_getElem, hbits f]
  | illfn10 a f p =>
    have hbits : ∀ g : BitVec 4, BitVec.getLsbD (w := 8) (1#4 ++ g) 7 = false
        ∧ BitVec.getLsbD (w := 8) (1#4 ++ g) 6 = false ∧ BitVec.getLsbD (w := 8) (1#4 ++ g) 5 = false
        ∧ BitVec.getLsbD (w := 8) (1#4 ++ g) 4 = true ∧ BitVec.extractLsb' (n := 8) 0 4 (1#4 ++ g) = g := by decide
    simp [decodeUnsupported, functionByte, addressByte, payloadBytes, -BitVec.getLsbD_eq_getElem, hbits f]
  | illfn08 a f p =>
    have hbits : ∀ g : BitVec 3, BitVec.getLsbD (w := 8) (1#5 ++ g) 7 = false
        ∧ BitVec.getLsbD (w := 8) (1#5 ++ g) 6 = false ∧ BitVec.getLsbD (w := 8) (1#5 ++ g) 5 = false
        ∧ BitVec.getLsbD (w := 8) (1#5 ++ g) 4 = false ∧ BitVec.getLsbD (w := 8) (1#5 ++ g) 3 = true
        ∧ BitVec.extractLsb' (n := 8) 0 3 (1#5 ++ g) = g := by decide
    simp [decodeUnsupported, functionByte, addressByte, payloadBytes, -BitVec.getLsbD_eq_getElem, hbits f]
  | illfn00 a f p =>
    have hbits : ∀ g : BitVec 2, (functionByte (.illfn00 0#8 g [])).getLsbD 7 = false
        ∧ (functionByte (.illfn00 0#8 g [])).getLsbD 6 = false ∧ (functionByte (.illfn00 0#8 g [])).getLsbD 5 = false
        ∧ (functionByte (.illfn00 0#8 g [])).getLsbD 4 = false ∧ (functionByte (.illfn00 0#8 g [])).getLsbD 3 = false
        ∧ (functionByte (.illfn00 0#8 g [])).getLsbD 1 = false
        ∧ (functionByte (.illfn00 0#8 g [])).extractLsb' 2 1 ++ (functionByte (.illfn00 0#8 g [])).extractLsb' 0 1 = g := by
      decide
    change decodeUnsupported a (functionByte (.illfn00 0#8 f [])) p = _
    simp [decodeUnsupported, -BitVec.getLsbD_eq_getElem, hbits f]
  | illfn02 a p => simp [decodeUnsupported, functionByte, addressByte, payloadBytes]
  | illfn07 a p => simp [decodeUnsupported, functionByte, addressByte, payloadBytes]

/-- Only a register read has the function byte 0x03: no other row selects it (R90). -/
theorem eq_rhr_of_functionByte {i : Instr} (h : functionByte i = 0x03#8) : ∃ a s q e, i = .rhr a s q e := by
  have hrow := rowOf_selects_functionByte i
  rw [h] at hrow
  cases i with
  | rhr a s q e => exact ⟨a, s, q, e, rfl⟩
  | _ => simp [rowOf, rowSelects] at hrow

/-- Only a register write has the function byte 0x06: no other row selects it (R90). -/
theorem eq_wsr_of_functionByte {i : Instr} (h : functionByte i = 0x06#8) : ∃ a r v e, i = .wsr a r v e := by
  have hrow := rowOf_selects_functionByte i
  rw [h] at hrow
  cases i with
  | wsr a r v e => exact ⟨a, r, v, e, rfl⟩
  | _ => simp [rowOf, rowSelects] at hrow

/-- The decoder takes the body of an instruction's frame for that instruction. -/
theorem decodeBody_payloadBytes (i : Instr) :
    decodeBody (addressByte i) (functionByte i) (payloadBytes i) = .ok i := by
  by_cases h3 : functionByte i = 0x03#8
  · obtain ⟨a, s, q, e, rfl⟩ := eq_rhr_of_functionByte h3
    refine (decodeBody_rhr a (hi8 s) (lo8 s) (hi8 q) (lo8 q) e).trans ?_
    rw [bigEndian_hi8_lo8, bigEndian_hi8_lo8]
  · by_cases h6 : functionByte i = 0x06#8
    · obtain ⟨a, r, v, e, rfl⟩ := eq_wsr_of_functionByte h6
      refine (decodeBody_wsr a (hi8 r) (lo8 r) (hi8 v) (lo8 v) e).trans ?_
      rw [bigEndian_hi8_lo8, bigEndian_hi8_lo8]
    · rw [decodeBody_unsupported ⟨h3, h6⟩, decodeUnsupported_functionByte h3 h6]

/-- Settles O12: a well-formed frame decodes by its body, which the decoder takes for the instruction it was made from. -/
theorem decodingAnEncodedRequestGivesItBack : Obligations.DecodingAnEncodedRequestGivesItBack := by
  intro i hwf
  rw [wellFormed_iff, length_encode] at hwf
  exact (decode_frame _ _ _ _ _ hwf).trans (decodeBody_payloadBytes i)

/-! ### encode after decode -/

/-- A register request that decodes has its four payload bytes, and they are what the fields encode to (R87). -/
theorem decodeBody_eq_ok {a fc : Byte} {p : List Byte} {i : Instr} (h : decodeBody a fc p = .ok i) :
    addressByte i = a ∧ functionByte i = fc ∧ payloadBytes i = p := by
  unfold decodeBody at h
  split at h
  next h3 =>
    split at h
    next b2 b3 b4 b5 e =>
      cases h
      simp [addressByte, functionByte, payloadBytes, beBytes, hi8_bigEndian, lo8_bigEndian, h3]
    next => cases h
  next h3 =>
    split at h
    next h6 =>
      split at h
      next b2 b3 b4 b5 e =>
        cases h
        simp [addressByte, functionByte, payloadBytes, beBytes, hi8_bigEndian, lo8_bigEndian, h6]
      next => cases h
    next h6 =>
      cases h
      obtain ⟨haddr, hpayload, -, -⟩ := decodeUnsupported_fields a fc p
      exact ⟨haddr, functionByte_decodeUnsupported a fc p h3 h6, hpayload⟩

/-- The two bytes that pass gate 3 are the trailer of the bytes before them (R114, R115). -/
theorem eq_trailer_of_trailerMatches {body : List Byte} {lo hi : Byte} (h : trailerMatches (body ++ [lo, hi]) = true) :
    [lo, hi] = trailer body := by
  rw [trailerMatches_append, beq_iff_eq] at h
  have hlo : lo8 (littleEndian lo hi) = lo := lo8_bigEndian hi lo
  have hhi : hi8 (littleEndian lo hi) = hi := hi8_bigEndian hi lo
  rw [trailer, leBytes, h, hlo, hhi]

/-- Settles O13: the instruction has the frame's address, function byte and payload, so its encoding is the frame up to
the trailer, which gate 3 fixes; the frame was short enough to decode. -/
theorem encodingADecodedFrameGivesItBack : Obligations.EncodingADecodedFrameGivesItBack := by
  intro frame i hdecode hcrc
  obtain ⟨a, fc, p, lo, hi, rfl, hlen, hbody⟩ := decode_ok hdecode
  obtain ⟨haddr, hfc, hpayload⟩ := decodeBody_eq_ok hbody
  have hencodeBody : encodeBody i = a :: fc :: p := by rw [encodeBody, haddr, hfc, hpayload]
  have htrailer : [lo, hi] = trailer (a :: fc :: p) := eq_trailer_of_trailerMatches hcrc
  refine ⟨by rw [encode, hencodeBody, ← htrailer]; rfl, ?_⟩
  rw [wellFormed_iff, length_encode, hpayload]
  exact hlen

/-! ### the fields of a request (R87) -/

/-- A frame of 8 bytes or more has an address, a function byte, four payload bytes and a trailer. -/
theorem exists_register_frame {frame : List Byte} (hlow : 8 ≤ frame.length) :
    ∃ a fc b2 b3 b4 b5 e lo hi, frame = a :: fc :: (b2 :: b3 :: b4 :: b5 :: e ++ [lo, hi]) := by
  obtain ⟨body, lo, hi, rfl⟩ := split_frame frame (by omega)
  have hbody : 6 ≤ body.length := by simpa using hlow
  match body, hbody with
  | a :: fc :: b2 :: b3 :: b4 :: b5 :: e, _ => exact ⟨a, fc, b2, b3, b4, b5, e, lo, hi, rfl⟩

/-- Gate 3 compares the CRC with the little-endian value of the last two bytes (R87, R115). -/
theorem trailerMatches_iff (frame : List Byte) : trailerMatches frame = true ↔
    (crc16 (frame.take (frame.length - 2))).toNat
      = (frame.getD (frame.length - 2) 0).toNat + 256 * (frame.getD (frame.length - 1) 0).toNat := by
  rw [trailerMatches, beq_iff_eq, ← BitVec.toNat_inj, littleEndian_toNat]

/-- Settles O16: such a frame is an address, a function byte and four field bytes, read big-endian; the trailer's clause
is gate 3's comparison. -/
theorem requestFieldsAreAssembledInWireOrder : Obligations.RequestFieldsAreAssembledInWireOrder := by
  intro frame hlow hhigh
  refine ⟨fun hfc => ?_, fun hfc => ?_, trailerMatches_iff frame⟩
  · obtain ⟨a, fc, b2, b3, b4, b5, e, lo, hi, rfl⟩ := exists_register_frame hlow
    obtain rfl : fc = 0x03#8 := hfc
    have hdecode := decode_frame a 0x03#8 (b2 :: b3 :: b4 :: b5 :: e) lo hi
      (by simp only [List.length_cons, List.length_append, List.length_nil] at hhigh ⊢; omega)
    exact ⟨_, _, e, hdecode.trans (decodeBody_rhr a b2 b3 b4 b5 e), bigEndian_toNat b2 b3, bigEndian_toNat b4 b5⟩
  · obtain ⟨a, fc, b2, b3, b4, b5, e, lo, hi, rfl⟩ := exists_register_frame hlow
    obtain rfl : fc = 0x06#8 := hfc
    have hdecode := decode_frame a 0x06#8 (b2 :: b3 :: b4 :: b5 :: e) lo hi
      (by simp only [List.length_cons, List.length_append, List.length_nil] at hhigh ⊢; omega)
    exact ⟨_, _, e, hdecode.trans (decodeBody_wsr a b2 b3 b4 b5 e), bigEndian_toNat b2 b3, bigEndian_toNat b4 b5⟩

/-! ### written-out words -/

/-- Settles O15: the decoder, run on each frame. -/
theorem writtenOutWordsDecode : Obligations.WrittenOutWordsDecode := by
  refine ⟨rfl, rfl, ?_, ?_, ?_, ?_⟩ <;> decide +kernel

end Sys2Proof.Machine

/-! The CRC engine (R110 to R117): its check values, the table-driven form, the residue, and the errors gate 3 finds. -/

namespace Sys2Proof.Machine

/-- Settles O17: the engine, run on each input. -/
theorem crcCheckValues : Obligations.CrcCheckValues := by
  refine ⟨rfl, ?_, ?_, ?_⟩ <;> decide +kernel

/-! ### the iterations -/

/-- One iteration as a sum: the shift, and the polynomial where bit 0 is set. -/
theorem crcBit_eq (c : Half) : crcBit c = (c >>> 1) ^^^ (if c.getLsbD 0 then 0xA001#16 else 0#16) := by
  unfold crcBit
  split <;> simp

/-- One iteration is linear. -/
theorem crcBit_xor (c d : Half) : crcBit (c ^^^ d) = crcBit c ^^^ crcBit d := by
  have hpoly : ∀ p q : Bool, (if (p ^^ q) then 0xA001#16 else 0#16)
      = (if p then 0xA001#16 else 0#16) ^^^ (if q then 0xA001#16 else 0#16) := by decide
  rw [crcBit_eq, crcBit_eq, crcBit_eq, BitVec.ushiftRight_xor_distrib, BitVec.getLsbD_xor, hpoly]
  ac_rfl

theorem crcBits_xor (n : Nat) (c d : Half) : crcBits n (c ^^^ d) = crcBits n c ^^^ crcBits n d := by
  induction n generalizing c d with
  | zero => rfl
  | succ n ih => rw [crcBits, crcBits, crcBits, crcBit_xor, ih]

/-- As long as no one reaches bit 0, the iterations only shift. -/
theorem crcBits_of_low_zero (n : Nat) (c : Half) (hlow : ∀ k, k < n → c.getLsbD k = false) :
    crcBits n c = c >>> n := by
  induction n generalizing c with
  | zero => exact (BitVec.ushiftRight_zero c).symm
  | succ n ih =>
    have hshifted : ∀ k, k < n → (c >>> 1).getLsbD k = false := fun k hk => by
      rw [BitVec.getLsbD_ushiftRight]
      exact hlow _ (by omega)
    rw [crcBits, crcBit_even (hlow 0 (Nat.succ_pos n)), ih _ hshifted, ← BitVec.shiftRight_add, Nat.add_comm]

/-- The low byte of a register, as a register. -/
theorem getLsbD_lo8 (c : Half) (k : Nat) : ((lo8 c).setWidth 16).getLsbD k = (decide (k < 8) && c.getLsbD k) := by
  by_cases hk : k < 8
  · simp [lo8, hk, Nat.lt_trans hk (by decide : 8 < 16)]
  · simp [lo8, hk]

/-- Taking the low byte away leaves a register whose low byte is zero and whose high byte is the same. -/
theorem crcBits_high (c : Half) : crcBits 8 (c ^^^ (lo8 c).setWidth 16) = c >>> 8 := by
  rw [crcBits_of_low_zero 8 _ fun k hk => by rw [BitVec.getLsbD_xor, getLsbD_lo8]; simp [hk],
    BitVec.ushiftRight_xor_distrib]
  apply BitVec.eq_of_getLsbD_eq
  intro k hk
  rw [BitVec.getLsbD_xor, BitVec.getLsbD_ushiftRight, BitVec.getLsbD_ushiftRight, getLsbD_lo8]
  simp

/-! ### the table-driven form (R112) -/

/-- Eight iterations: the high byte moves down, the low byte selects the table entry. -/
theorem crcBits_eight (c : Half) : crcBits 8 c = (c >>> 8) ^^^ crcTableEntry (lo8 c) := by
  have hsplit : c = (c ^^^ (lo8 c).setWidth 16) ^^^ (lo8 c).setWidth 16 := by
    rw [BitVec.xor_assoc, BitVec.xor_self, BitVec.xor_zero]
  calc crcBits 8 c = crcBits 8 ((c ^^^ (lo8 c).setWidth 16) ^^^ (lo8 c).setWidth 16) := by rw [← hsplit]
    _ = (c >>> 8) ^^^ crcTableEntry (lo8 c) := by rw [crcBits_xor, crcBits_high, crcTableEntry]

theorem crcByte_eq_table (c : Half) (b : Byte) : crcByte c b = crcTableByte c b := by
  have hbyte : (b.setWidth 16 : Half) >>> 8 = 0#16 := by
    apply BitVec.eq_of_toNat_eq
    have := b.isLt
    simp [Nat.shiftRight_eq_div_pow]
    omega
  rw [crcByte, crcBits_eight, crcTableByte, BitVec.ushiftRight_xor_distrib, hbyte, BitVec.xor_zero]

/-- Settles O18: the two forms agree on every byte, so on every list of bytes. -/
theorem tableDrivenCrcEqualsTheBitwiseOne : Obligations.TableDrivenCrcEqualsTheBitwiseOne := by
  intro bytes
  have hbyte : crcTableByte = crcByte := funext fun c => funext fun b => (crcByte_eq_table c b).symm
  rw [crc16Table, hbyte, crc16, crcFrom]

/-! ### the residue (R115) -/

theorem setWidth_hi8 (c : Half) : (hi8 c).setWidth 16 = c >>> 8 := by
  apply BitVec.eq_of_toNat_eq
  have := c.isLt
  simp [hi8_toNat, Nat.shiftRight_eq_div_pow]
  omega

/-- A register fed its own two bytes, the low one first, comes to zero. -/
theorem crcFrom_leBytes (c : Half) : crcFrom c (leBytes c) = 0x0000#16 := by
  have hlow : crcByte c (lo8 c) = c >>> 8 := crcBits_high c
  have hhigh : crcByte (c >>> 8) (hi8 c) = 0x0000#16 := by
    rw [crcByte, setWidth_hi8, BitVec.xor_self]
    rfl
  rw [leBytes, crcFrom_cons, crcFrom_cons, crcFrom_nil, hlow, hhigh]

/-- Settles O19: the trailer is the register's own two bytes, and gate 3 compares it with the register. -/
theorem appendingTheTrailerValidates : Obligations.AppendingTheTrailerValidates := by
  intro body
  rw [withCrc_eq]
  refine ⟨?_, trailerMatches_trailer body⟩
  rw [crc16, crcFrom_append]
  exact crcFrom_leBytes (crc16 body)

/-! ### errors (R115) -/

/-- The polynomial's top bit tells whether bit 0 was set, so an iteration loses nothing. -/
theorem crcBit_injective : Function.Injective crcBit := by
  have htop : ∀ c : Half, (crcBit c).getLsbD 15 = c.getLsbD 0 := fun c => by
    rw [crcBit_eq, BitVec.getLsbD_xor, BitVec.getLsbD_ushiftRight]
    cases c.getLsbD 0 <;> simp
  intro c d h
  have hbit0 : c.getLsbD 0 = d.getLsbD 0 := by rw [← htop c, ← htop d, h]
  have hshift : c >>> 1 = d >>> 1 := by
    rw [crcBit_eq, crcBit_eq, hbit0] at h
    exact (BitVec.xor_left_inj _).mp h
  apply BitVec.eq_of_getLsbD_eq
  intro k hk
  cases k with
  | zero => exact hbit0
  | succ k =>
    have hk := congrArg (BitVec.getLsbD · k) hshift
    simpa [BitVec.getLsbD_ushiftRight, Nat.add_comm] using hk

theorem crcBits_injective (n : Nat) : Function.Injective (crcBits n) := by
  induction n with
  | zero => exact fun c d h => h
  | succ n ih => exact fun c d h => crcBit_injective (ih h)

/-- A byte fed to two registers leaves them different. -/
theorem crcByte_left_injective {c d : Half} {b : Byte} (h : crcByte c b = crcByte d b) : c = d :=
  (BitVec.xor_left_inj _).mp (crcBits_injective 8 h)

/-- Two bytes fed to one register make it different. -/
theorem crcByte_right_injective {c : Half} {a b : Byte} (h : crcByte c a = crcByte c b) : a = b := by
  have hwide : a.setWidth 16 = b.setWidth 16 := (BitVec.xor_right_inj _).mp (crcBits_injective 8 h)
  have hnat : a.toNat % 65536 = b.toNat % 65536 := by simpa using congrArg BitVec.toNat hwide
  exact BitVec.eq_of_toNat_eq (by have := a.isLt; have := b.isLt; omega)

theorem crcFrom_left_injective {c d : Half} {bs : List Byte} (h : crcFrom c bs = crcFrom d bs) : c = d := by
  induction bs generalizing c d with
  | nil => exact h
  | cons b bs ih => exact crcByte_left_injective (ih h)

/-- One wrong byte changes the CRC. -/
theorem crcFrom_set_ne {c : Half} {bs : List Byte} {i : Nat} {x : Byte} (hi : i < bs.length) (hx : x ≠ bs.getD i 0) :
    crcFrom c (bs.set i x) ≠ crcFrom c bs := by
  induction bs generalizing c i with
  | nil => exact absurd hi (Nat.not_lt_zero i)
  | cons b bs ih =>
    cases i with
    | zero => exact fun h => hx (crcByte_right_injective (crcFrom_left_injective h))
    | succ i => exact ih (Nat.lt_of_succ_lt_succ hi) hx

/-- One wrong byte, in payload or trailer, fails gate 3. -/
theorem trailerMatches_set {frame : List Byte} {i : Nat} {x : Byte} (hlen : 2 ≤ frame.length)
    (hmatch : trailerMatches frame = true) (hi : i < frame.length) (hx : x ≠ frame.getD i 0) :
    trailerMatches (frame.set i x) = false := by
  obtain ⟨body, lo, hi', rfl⟩ := split_frame frame hlen
  rw [trailerMatches_append, beq_iff_eq] at hmatch
  by_cases hbody : i < body.length
  · rw [List.getD_append _ _ _ _ hbody] at hx
    rw [List.set_append_left i x hbody, trailerMatches_append, ← hmatch, beq_eq_false_iff_ne]
    exact crcFrom_set_ne hbody hx
  · obtain ⟨k, rfl⟩ : ∃ k, i = body.length + k := ⟨i - body.length, by omega⟩
    have hk : k = 0 ∨ k = 1 := by
      rw [List.length_append, List.length_cons, List.length_cons, List.length_nil] at hi
      omega
    rw [List.getD_append_right _ _ _ _ (by omega), Nat.add_sub_cancel_left] at hx
    rw [List.set_append_right _ _ (by omega), Nat.add_sub_cancel_left]
    obtain rfl | rfl := hk
    · change trailerMatches (body ++ [x, hi']) = false
      rw [trailerMatches_append, hmatch, beq_eq_false_iff_ne]
      exact fun h => hx (littleEndian_injective h).1.symm
    · change trailerMatches (body ++ [lo, x]) = false
      rw [trailerMatches_append, hmatch, beq_eq_false_iff_ne]
      exact fun h => hx (littleEndian_injective h).2.symm

/-- Inverting a bit of a byte makes it another byte. -/
theorem xor_bit_ne (b : Byte) {k : Nat} (hk : k < 8) : b ^^^ (1#8 <<< k) ≠ b := by
  have hbit : ∀ j : Fin 8, 1#8 <<< (j : Nat) ≠ 0#8 := by decide
  exact fun h => hbit ⟨k, hk⟩ ((BitVec.xor_right_inj b).mp (h.trans BitVec.xor_zero.symm))

/-- Settles O20: an inverted bit is a wrong byte. -/
theorem everySingleBitErrorIsDetected : Obligations.EverySingleBitErrorIsDetected := by
  intro frame i k hlen hmatch hi hk
  exact trailerMatches_set hlen hmatch hi (xor_bit_ne _ hk)

end Sys2Proof.Machine

/-! What a step can do (R48): one case per effect an event can have, with the guard it has it under. The facts that hold of
every step are read off these cases. -/

namespace Sys2Proof.Machine

/-! ### a request, as one update of the state -/

/-- `s` after the handler of the request `i` (R150): its effect on the store and the trace, and its response. -/
def responded (i : Instr) (s : State) : State :=
  { s with
    x := (requestEffect i s).x
    trace := (requestEffect i s).trace
    resp := s.resp.writeList 0 (withCrc (requestBody i s))
    respLen := responseLength s.cfg i }

theorem loadResponse_requestBody (i : Instr) (s : State) :
    loadResponse (requestBody i s) (requestEffect i s) = responded i s := by
  rw [requestEffect_fields, responded, withCrc_eq, ← length_requestBody i s]
  simp [loadResponse]

/-- Every instruction is its handler, then broadcast suppression or the wait to send (R154, R155). -/
theorem exec_eq_responded (i : Instr) (s : State) :
    exec i s = .next (if addressByte i = 0x00#8 then { responded i s with respLen := 0, phase := .done }
      else { responded i s with txIdx := 0, phase := .guardPre }) := by
  rw [exec_eq, finishProcess_loadResponse, loadResponse_requestBody]

/-- A request to this slave is answered. -/
theorem exec_of_addressed {i : Instr} (haddr : addressByte i ≠ 0x00#8) (s : State) :
    exec i s = .next { responded i s with txIdx := 0, phase := .guardPre } := by
  rw [exec_eq_responded, if_neg haddr]

/-- A broadcast request is not. -/
theorem exec_of_broadcast {i : Instr} (haddr : addressByte i = 0x00#8) (s : State) :
    exec i s = .next { responded i s with respLen := 0, phase := .done } := by
  rw [exec_eq_responded, if_pos haddr]

/-- The effect of a request: none, or one register written and the hook notified (R184, R186). -/
theorem requestEffect_cases (i : Instr) (s : State) :
    requestEffect i s = s ∨ ∃ r v : Half, r.toNat < s.cfg.regCount
      ∧ requestEffect i s = { s with x := s.x.write r.toNat v, trace := s.trace ++ hookTrace s.cfg r v } := by
  by_cases hwrites : writesRegister s.cfg i = true
  · cases i with
    | wsr a r v e =>
      have hr : r.toNat < s.cfg.regCount := by simpa [writesRegister] using hwrites
      exact .inr ⟨r, v, hr, requestEffect_wsr hr a v e⟩
    | _ => cases hwrites
  · exact .inl (requestEffect_of_not_writes (by simpa using hwrites))

/-- Every response begins with the slave's address (R80). -/
theorem requestBody_cons (i : Instr) (s : State) : ∃ body, requestBody i s = s.slaveAddr :: body := by
  cases i with
  | rhr a start qty e =>
    rw [requestBody]
    split
    · split <;> exact ⟨_, rfl⟩
    · exact ⟨_, rfl⟩
  | wsr a r v e =>
    rw [requestBody]
    split <;> exact ⟨_, rfl⟩
  | _ => exact ⟨_, rfl⟩

theorem length_withCrc (body : List Byte) : (withCrc body).length = body.length + 2 := by simp [withCrc]

theorem length_withCrc_requestBody (i : Instr) (s : State) :
    (withCrc (requestBody i s)).length = responseLength s.cfg i := by
  rw [length_withCrc, length_requestBody]

/-! ### the cases of a step -/

/-- `Moves s e t`: the event `e` can take `s` to `t`. One constructor per effect, with its guard and the fields it writes. -/
inductive Moves (s : State) : Event → State → Prop
  /-- an event that is not enabled, or a byte while a frame is ready; a collaborator access is never passed over -/
  | skip (e : Event) (hnoAccess : accessOf e = none) : Moves s e s
  | advance : Moves s .advance { s with now := s.now + 1#32 }
  | store (b : Byte) (hready : s.frameReady = false) (hroom : s.rxIndex < 256) :
      Moves s (.rxByte b)
        { s with buf := s.buf.write s.rxIndex b, rxIndex := s.rxIndex + 1, lastRxTime := s.now }
  | overflow (b : Byte) (hready : s.frameReady = false) : Moves s (.rxByte b) { s with lastRxTime := s.now }
  | ready (hready : s.frameReady = false) (hbytes : 0 < s.rxIndex) (hsilent : silenceReached s = true) :
      Moves s .tick { s with frameReady := true }
  | order (b : Byte) (first : List Event) (hfirst : first = [.rxByte b, .tick] ∨ first = [.tick, .rxByte b]) :
      Moves s (.rxByteWithTick b) { s with events := first ++ s.events, orderCount := s.orderCount + 1 }
  | drop (hidle : s.phase = .idle) (hready : s.frameReady = true) :
      Moves s .poll { s with respLen := 0, phase := .done }
  | silence (i : Instr) (hidle : s.phase = .idle) (hready : s.frameReady = true) :
      Moves s .poll { responded i s with respLen := 0, phase := .done }
  | answer (i : Instr) (hidle : s.phase = .idle) (hready : s.frameReady = true) :
      Moves s .poll { responded i s with txIdx := 0, phase := .guardPre }
  | guardPre (hphase : s.phase = .guardPre) :
      Moves s .guardPre { s with de := true, trace := s.trace ++ [.de true], phase := .send }
  | sendByte (hphase : s.phase = .send) (hmore : s.txIdx < s.respLen) :
      Moves s .sendByte { s with trace := s.trace ++ [.tx (s.resp.read s.txIdx)], txIdx := s.txIdx + 1 }
  | sendDone (hphase : s.phase = .send) (hall : s.txIdx = s.respLen) : Moves s .sendDone { s with phase := .waitTc }
  | tc (hphase : s.phase = .waitTc) : Moves s .tc { s with phase := .guardPost }
  | tcTimeout (hphase : s.phase = .waitTc) (htimeout : s.cfg.tcTimeout.isSome = true) :
      Moves s .tcTimeout { s with de := false, trace := s.trace ++ [.de false], txFault := true, phase := .done }
  | guardPost (hphase : s.phase = .guardPost) :
      Moves s .guardPost { s with de := false, trace := s.trace ++ [.de false], phase := .done }
  | clear (hphase : s.phase = .done) :
      Moves s .clear { s with
        events := s.delayed.map Access.event ++ s.events, delayed := [], rxIndex := 0, frameReady := false
        phase := .idle }
  | read (a : Nat) (reply : Option Reply) (hidle : s.phase = .idle) : Moves s (.collabRead a) { s with reply := reply }
  | write (a : Nat) (v : Half) (hidle : s.phase = .idle) (ha : a < s.cfg.regCount) :
      Moves s (.collabWrite a v) { s with x := s.x.write a v, reply := some .ok }
  | outOfRange (a : Nat) (v : Half) (hidle : s.phase = .idle) :
      Moves s (.collabWrite a v) { s with reply := some .outOfRange }
  | delay (e : Event) (access : Access) (haccess : accessOf e = some access) (hbusy : s.phase ≠ .idle) :
      Moves s e { s with delayed := s.delayed ++ [access] }
  | reset : Moves s .reset (resetStep s)

/-- A byte while a frame is ready has no effect (R127). -/
theorem rxByte_of_ready {s : State} (hready : s.frameReady = true) (b : Byte) : rxByte b s = s := if_pos hready

/-- A byte to a full buffer refreshes the timestamp only (R128). -/
theorem rxByte_of_full {s : State} (hready : s.frameReady = false) (hfull : ¬ s.rxIndex < 256) (b : Byte) :
    rxByte b s = { s with lastRxTime := s.now } := by
  have hstore : storeByte b s = s := if_neg hfull
  rw [rxByte, if_neg (by simp [hready]), hstore]

theorem moves_rxByte (b : Byte) (s : State) : Moves s (.rxByte b) (rxByte b s) := by
  cases hready : s.frameReady with
  | true =>
    rw [rxByte_of_ready hready]
    exact .skip _ rfl
  | false =>
    by_cases hroom : s.rxIndex < 256
    · rw [rxByte_of_room hready hroom]
      exact .store b hready hroom
    · rw [rxByte_of_full hready hroom]
      exact .overflow b hready

theorem moves_tick (s : State) : Moves s .tick (tick s) := by
  unfold tick
  split
  next henabled =>
    simp only [Bool.and_eq_true, Bool.not_eq_true', decide_eq_true_eq] at henabled
    obtain ⟨⟨hready, hbytes⟩, hsilent⟩ := henabled
    exact .ready hready hbytes hsilent
  next => exact .skip _ rfl

/-- The two orders of a byte and a tick in one instant (R134). -/
theorem rxByteWithTick_eq (b : Byte) (s : State) : ∃ first,
    rxByteWithTick b s = { s with events := first ++ s.events, orderCount := s.orderCount + 1 }
      ∧ (first = [.rxByte b, .tick] ∨ first = [.tick, .rxByte b])
      ∧ (s.cfg.simulOrder = .byteFirst → first = [.rxByte b, .tick])
      ∧ (s.cfg.simulOrder = .tickFirst → first = [.tick, .rxByte b]) := by
  unfold rxByteWithTick
  cases s.cfg.simulOrder with
  | byteFirst => exact ⟨[.rxByte b, .tick], by simp⟩
  | tickFirst => exact ⟨[.tick, .rxByte b], by simp⟩
  | free =>
    cases Config.freeByteFirst s.orderCount with
    | true => exact ⟨[.rxByte b, .tick], by simp⟩
    | false => exact ⟨[.tick, .rxByte b], by simp⟩

theorem moves_exec {s t : State} {i : Instr} (hidle : s.phase = .idle) (hready : s.frameReady = true)
    (h : exec i s = .next t) : Moves s .poll t := by
  by_cases haddr : addressByte i = 0x00#8
  · rw [exec_of_broadcast haddr] at h
    cases h
    exact .silence i hidle hready
  · rw [exec_of_addressed haddr] at h
    cases h
    exact .answer i hidle hready

theorem moves_poll {s t : State} (h : poll s = .next t) : Moves s .poll t := by
  obtain ⟨hidle, hready, hproc⟩ | rfl := poll_cases h
  · obtain rfl | ⟨i, -, hexec⟩ := process_cases hproc
    · exact .drop hidle hready
    · exact moves_exec hidle hready hexec
  · exact .skip _ rfl

/-- A byte is sent while one is left and lies in the response buffer (R203). -/
theorem sendByte_of_more {s : State} (hmore : s.phase = .send ∧ s.txIdx < s.respLen) (hcell : s.txIdx < 256) :
    sendByte s = .next { s with trace := s.trace ++ [.tx (s.resp.read s.txIdx)], txIdx := s.txIdx + 1 } := by
  rw [sendByte, if_pos hmore, if_pos (show s.txIdx < Config.respCap from hcell)]
  rfl

theorem sendByte_of_not_more {s : State} (hnot : ¬ (s.phase = .send ∧ s.txIdx < s.respLen)) :
    sendByte s = .next s := if_neg hnot

/-- A byte outside the response buffer is the only way to stop. -/
theorem sendByte_bound {s t : State} (h : sendByte s = .next t) (hmore : s.phase = .send ∧ s.txIdx < s.respLen) :
    s.txIdx < 256 := by
  by_contra hcell
  rw [sendByte, if_pos hmore, if_neg (show ¬ s.txIdx < Config.respCap from hcell)] at h
  cases h

theorem moves_sendByte {s t : State} (h : sendByte s = .next t) : Moves s .sendByte t := by
  by_cases hmore : s.phase = .send ∧ s.txIdx < s.respLen
  · rw [sendByte_of_more hmore (sendByte_bound h hmore)] at h
    cases h
    exact .sendByte hmore.1 hmore.2
  · rw [sendByte_of_not_more hmore] at h
    cases h
    exact .skip _ rfl

theorem moves_collabRead (a : Nat) (s : State) : Moves s (.collabRead a) (collabRead a s) := by
  unfold collabRead
  split
  next hidle => exact .read a _ hidle
  next hbusy => exact .delay _ _ rfl hbusy

theorem moves_collabWrite (a : Nat) (v : Half) (s : State) : Moves s (.collabWrite a v) (collabWrite a v s) := by
  unfold collabWrite
  split
  next hidle =>
    split
    next ha => exact .write a v hidle (by simpa [addressLegal] using ha)
    next => exact .outOfRange a v hidle
  next hbusy => exact .delay _ _ rfl hbusy

/-- What an event does is one of the cases. -/
theorem moves_of_runEvent {e : Event} {s t : State} (h : runEvent e s = .next t) : Moves s e t := by
  cases e with
  | poll => exact moves_poll h
  | sendByte => exact moves_sendByte h
  | rxByte b =>
    cases h
    exact moves_rxByte b s
  | advance =>
    cases h
    exact .advance
  | tick =>
    cases h
    exact moves_tick s
  | rxByteWithTick b =>
    cases h
    obtain ⟨first, heq, hfirst, -, -⟩ := rxByteWithTick_eq b s
    rw [heq]
    exact .order b first hfirst
  | guardPre =>
    cases h
    unfold guardPre
    split
    · exact .guardPre ‹_›
    · exact .skip _ rfl
  | sendDone =>
    cases h
    unfold sendDone
    split
    next hdone => exact .sendDone hdone.1 hdone.2
    next => exact .skip _ rfl
  | tc =>
    cases h
    unfold tc
    split
    · exact .tc ‹_›
    · exact .skip _ rfl
  | tcTimeout =>
    cases h
    unfold tcTimeout
    split
    next hwait => exact .tcTimeout hwait.1 hwait.2
    next => exact .skip _ rfl
  | guardPost =>
    cases h
    unfold guardPost
    split
    · exact .guardPost ‹_›
    · exact .skip _ rfl
  | clear =>
    cases h
    unfold clearStep
    split
    · exact .clear ‹_›
    · exact .skip _ rfl
  | collabRead a =>
    cases h
    exact moves_collabRead a s
  | collabWrite a v =>
    cases h
    exact moves_collabWrite a v s
  | reset =>
    cases h
    exact .reset

/-- The event `e` is the next one and leaves the schedule `evs`: the head of the schedule, or the main loop's own. -/
def Takes (s : State) (e : Event) (evs : List Event) : Prop :=
  s.events = e :: evs ∨ (s.events = [] ∧ evs = [] ∧ mainEvent s = some e)

theorem Takes.nextEvent {s : State} {e : Event} {evs : List Event} (h : Takes s e evs) : nextEvent s = some e := by
  obtain hhead | ⟨hnil, -, hmain⟩ := h
  · simp [Machine.nextEvent, hhead]
  · simpa [Machine.nextEvent, hnil] using hmain

/-- Every step is one of the cases, or the main loop waiting with an empty schedule. -/
theorem step_moves {s t : State} (h : step s = .next t) :
    (∃ e evs, Takes s e evs ∧ Moves { s with events := evs } e t) ∨ t = s := by
  have hlegal : s.cfg.legal = true := (step_cases h).1
  cases hevents : s.events with
  | cons e rest =>
    rw [step_event hlegal hevents] at h
    exact .inl ⟨e, rest, .inl hevents, moves_of_runEvent h⟩
  | nil =>
    rw [step_idle hlegal hevents, runMain] at h
    cases hmain : mainEvent s with
    | some e =>
      rw [hmain] at h
      exact .inl ⟨e, [], .inr ⟨hevents, rfl, hmain⟩, hevents ▸ moves_of_runEvent h⟩
    | none =>
      rw [hmain] at h
      cases h
      exact .inr rfl

end Sys2Proof.Machine

/-! The invariant of the block: it holds at reset, every case of a step keeps it, and from it every step has a next
state. -/

namespace Sys2Proof.Machine

/-! ### the bus as the trace shows it (R47, R210) -/

theorem busLevel_append (trace : List Output) (e : Output) : busLevel (trace ++ [e]) = busStep (busLevel trace) e := by
  rw [busLevel, List.foldl_append]
  rfl

/-- A hook event leaves the line as it is. -/
theorem busLevel_hookTrace (trace : List Output) (cfg : Config) (r v : Half) :
    busLevel (trace ++ hookTrace cfg r v) = busLevel trace := by
  unfold hookTrace
  split
  · rw [busLevel_append]
    cases busLevel trace <;> rfl
  · rw [List.append_nil]

theorem busLevel_requestEffect (i : Instr) (s : State) : busLevel (requestEffect i s).trace = busLevel s.trace := by
  obtain heffect | ⟨r, v, -, heffect⟩ := requestEffect_cases i s
  · rw [heffect]
  · rw [heffect]
    exact busLevel_hookTrace s.trace s.cfg r v

/-! ### the store and the response of a request -/

theorem wf_requestEffect_x (i : Instr) {s : State} (h : s.x.wf = true) : (requestEffect i s).x.wf = true := by
  obtain heffect | ⟨r, v, -, heffect⟩ := requestEffect_cases i s
  · rwa [heffect]
  · rw [heffect]
    exact Memory.wf_write h r.toNat v

theorem below_requestEffect_x (i : Instr) {s : State} (h : s.x.below s.cfg.regCount = true) :
    (requestEffect i s).x.below s.cfg.regCount = true := by
  obtain heffect | ⟨r, v, hr, heffect⟩ := requestEffect_cases i s
  · rwa [heffect]
  · rw [heffect]
    exact Memory.below_write h hr

/-- The response of a request fits the response buffer (R31). -/
theorem below_responded (i : Instr) {s : State} (h : s.resp.below 256 = true) : (responded i s).resp.below 256 = true := by
  refine Memory.below_writeList h ?_
  rw [length_withCrc_requestBody]
  have := (responseLength_bounds s.cfg i).2
  omega

theorem respBytes_responded (i : Instr) {s : State} (h : s.resp.wf = true) :
    respBytes (responded i s) = withCrc (requestBody i s) := by
  rw [respBytes, responded, ← length_withCrc_requestBody]
  exact Memory.readList_writeList h 0 _

/-- A response carries the slave's address and its own CRC (R80, R114). -/
theorem sealed_responded (i : Instr) {s : State} (h : s.resp.wf = true) :
    (responded i s).resp.read 0 = s.slaveAddr ∧ trailerMatches (respBytes (responded i s)) = true := by
  constructor
  · obtain ⟨body, hbody⟩ := requestBody_cons i s
    simp [responded, Memory.read_writeList h, hbody, withCrc]
  · rw [respBytes_responded i h, withCrc_eq]
    exact trailerMatches_trailer _

/-! ### the invariant -/

/-- Settles O4: every field of the reset state is a literal of the build. -/
theorem invariantHoldsAtReset : Obligations.InvariantHoldsAtReset := by
  intro cfg hlegal
  exact { legal := hlegal, address := rfl, xWf := rfl, xBelow := rfl, bufWf := rfl, bufBelow := rfl, respWf := rfl
          respBelow := rfl, rxBound := Nat.zero_le _, readyNonempty := nofun, busyReady := fun h => absurd rfl h
          direction := rfl, respBound := Nat.zero_le _, txRange := Nat.zero_le _, txBound := fun _ => Nat.zero_le _
          guardStart := nofun, answering := by simp [State.resetFor, sending], allSent := by simp [State.resetFor]
          sealed := by simp [State.resetFor, sending], faultOnlyByTimeout := nofun, noneWaiting := fun _ => rfl
          bus := rfl }

/-- The schedule is no part of the invariant. -/
theorem Inv.withEvents {s : State} (h : Inv s) (evs : List Event) : Inv { s with events := evs } := { h with }

/-- A response is on its way (R155, R209). -/
def Responding (p : Phase) : Prop := p = .guardPre ∨ sending p = true

theorem not_responding_idle : ¬ Responding .idle := by simp [Responding, sending]

theorem not_responding_done : ¬ Responding .done := by simp [Responding, sending]

theorem Inv.level {s : State} (h : Inv s) {p : Phase} (hp : s.phase = p) : busLevel s.trace = some (sending p) := by
  rw [h.bus, h.direction, hp]

/-- A byte stored at the write index keeps the invariant (R126). -/
theorem Inv.store {s : State} (h : Inv s) (hready : s.frameReady = false) (hroom : s.rxIndex < 256) (b : Byte) :
    Inv { s with buf := s.buf.write s.rxIndex b, rxIndex := s.rxIndex + 1, lastRxTime := s.now } :=
  { h with
    bufWf := Memory.wf_write h.bufWf _ _
    bufBelow := Memory.below_write h.bufBelow hroom
    rxBound := hroom
    readyNonempty := fun hr => absurd hr (by simp [hready]) }

/-- So does the end of a consumption: with no response on its way, the fields of the response are free (R155). -/
theorem Inv.done {s t : State} (h : Inv s) (hready : s.frameReady = true)
    (ht : t = { s with x := t.x, resp := t.resp, respLen := t.respLen, de := false, phase := .done
                       txFault := t.txFault, trace := t.trace })
    (hxWf : t.x.wf = true) (hxBelow : t.x.below s.cfg.regCount = true) (hrespWf : t.resp.wf = true)
    (hrespBelow : t.resp.below 256 = true) (hlen : t.respLen ≤ 255)
    (hfault : t.txFault = true → s.cfg.tcTimeout.isSome = true) (hbus : busLevel t.trace = some false) : Inv t := by
  rw [ht]
  exact { h with
    xWf := hxWf, xBelow := hxBelow, respWf := hrespWf, respBelow := hrespBelow
    busyReady := fun _ => hready
    direction := rfl
    respBound := hlen
    txBound := fun hp => absurd hp not_responding_done
    guardStart := nofun
    answering := fun hp => absurd hp not_responding_done
    allSent := by simp
    sealed := fun hp => absurd hp not_responding_done
    faultOnlyByTimeout := hfault
    noneWaiting := nofun
    bus := hbus }

/-- The invariant after the process step of an answered request (R155). -/
theorem Inv.answer {s : State} (h : Inv s) (hready : s.frameReady = true) (hidle : s.phase = .idle) (i : Instr) :
    Inv { responded i s with txIdx := 0, phase := .guardPre } :=
  { h with
    xWf := wf_requestEffect_x i h.xWf
    xBelow := below_requestEffect_x i h.xBelow
    respWf := Memory.wf_writeList h.respWf _ _
    respBelow := below_responded i h.respBelow
    busyReady := fun _ => hready
    direction := h.direction.trans (by rw [hidle]; rfl)
    respBound := (responseLength_bounds s.cfg i).2
    txRange := Nat.zero_le _
    txBound := fun _ => Nat.zero_le _
    guardStart := fun _ => rfl
    answering := fun _ => (responseLength_bounds s.cfg i).1
    allSent := by simp
    sealed := fun _ => sealed_responded i h.respWf
    noneWaiting := nofun
    bus := (busLevel_requestEffect i s).trans h.bus }

/-- From one phase of the transmission to the next (R204, R205), once every byte is handed over. -/
theorem Inv.nextSending {s : State} (h : Inv s) (hsending : sending s.phase = true) (hall : s.txIdx = s.respLen)
    {p : Phase} (hp : sending p = true) : Inv { s with phase := p } :=
  { h with
    busyReady := fun _ => h.busyReady fun hidle => by simp [hidle, sending] at hsending
    direction := h.direction.trans (hsending.trans hp.symm)
    txBound := fun _ => h.txBound (.inr hsending)
    guardStart := fun (hguard : p = .guardPre) => by simp [hguard, sending] at hp
    answering := fun _ => h.answering (.inr hsending)
    allSent := fun _ => hall
    sealed := fun _ => h.sealed (.inr hsending)
    noneWaiting := fun (hidle : p = .idle) => by simp [hidle, sending] at hp }

/-- Every case of a step keeps the invariant. -/
theorem Moves.inv {s t : State} {e : Event} (hmove : Moves s e t) (h : Inv s) : Inv t := by
  cases hmove with
  | skip => exact h
  | advance => exact { h with }
  | store b hready hroom => exact h.store hready hroom b
  | overflow => exact { h with }
  | ready hready hbytes hsilent => exact { h with readyNonempty := fun _ => hbytes, busyReady := fun _ => rfl }
  | order => exact { h with }
  | drop hidle hready =>
    have hde : s.de = false := h.direction.trans (by rw [hidle]; rfl)
    exact h.done hready (by rw [← hde]) h.xWf h.xBelow h.respWf h.respBelow (Nat.zero_le _) h.faultOnlyByTimeout
      (h.level hidle)
  | silence i hidle hready =>
    have hde : s.de = false := h.direction.trans (by rw [hidle]; rfl)
    exact h.done hready (by rw [← hde]; rfl) (wf_requestEffect_x i h.xWf) (below_requestEffect_x i h.xBelow)
      (Memory.wf_writeList h.respWf _ _) (below_responded i h.respBelow) (Nat.zero_le _) h.faultOnlyByTimeout
      ((busLevel_requestEffect i s).trans (h.level hidle))
  | answer i hidle hready => exact h.answer hready hidle i
  | guardPre hphase =>
    exact { h with
      busyReady := fun _ => h.busyReady (by simp [hphase])
      direction := rfl
      txBound := fun _ => h.txBound (.inl hphase)
      guardStart := nofun
      answering := fun _ => h.answering (.inl hphase)
      allSent := by simp
      sealed := fun _ => h.sealed (.inl hphase)
      noneWaiting := nofun
      bus := by rw [busLevel_append, h.level hphase]; rfl }
  | sendByte hphase hmore =>
    exact { h with
      txRange := hmore.trans_le h.respBound
      txBound := fun _ => hmore
      guardStart := fun hp => by simp [hphase] at hp
      allSent := fun hp => by simp [hphase] at hp
      bus := by rw [busLevel_append, h.level hphase, h.direction, hphase]; rfl }
  | sendDone hphase hall => exact h.nextSending (by rw [hphase]; rfl) hall rfl
  | tc hphase => exact h.nextSending (by rw [hphase]; rfl) (h.allSent (.inl hphase)) rfl
  | tcTimeout hphase htimeout =>
    exact h.done (h.busyReady (by simp [hphase])) rfl h.xWf h.xBelow h.respWf h.respBelow h.respBound
      (fun _ => htimeout) (by rw [busLevel_append, h.level hphase]; rfl)
  | guardPost hphase =>
    exact h.done (h.busyReady (by simp [hphase])) rfl h.xWf h.xBelow h.respWf h.respBelow h.respBound
      h.faultOnlyByTimeout (by rw [busLevel_append, h.level hphase]; rfl)
  | clear hphase =>
    exact { h with
      rxBound := Nat.zero_le _
      readyNonempty := nofun
      busyReady := fun hp => absurd rfl hp
      direction := h.direction.trans (by rw [hphase]; rfl)
      txBound := fun hp => absurd hp not_responding_idle
      guardStart := nofun
      answering := fun hp => absurd hp not_responding_idle
      allSent := by simp
      sealed := fun hp => absurd hp not_responding_idle
      noneWaiting := fun _ => rfl }
  | read => exact { h with }
  | write a v hidle ha => exact { h with xWf := Memory.wf_write h.xWf a v, xBelow := Memory.below_write h.xBelow ha }
  | outOfRange => exact { h with }
  | delay e access haccess hbusy => exact { h with noneWaiting := fun hp => absurd hp hbusy }
  | reset =>
    have hreset : Inv (State.resetFor s.cfg) := invariantHoldsAtReset s.cfg h.legal
    refine { hreset with bus := ?_ }
    cases hde : s.de with
    | false => simpa [resetStep, hde, State.resetFor] using h.bus
    | true => simp [resetStep, hde, State.resetFor, busLevel_append, h.bus, busStep]

/-- Settles O5: each case of a step keeps the invariant. -/
theorem everyStepKeepsTheInvariant : Obligations.EveryStepKeepsTheInvariant := by
  intro s t h hstep
  obtain ⟨e, evs, -, hmove⟩ | rfl := step_moves hstep
  · exact hmove.inv (h.withEvents evs)
  · exact h

/-! ### progress -/

/-- The process step of a frame that the buffer holds has a next state (R159). -/
theorem exists_process {s : State} (hbound : s.rxIndex ≤ 256) : ∃ t, process s = .next t := by
  unfold process
  rw [if_neg (by simpa using hbound)]
  split
  · exact ⟨_, rfl⟩
  · split
    · exact ⟨_, rfl⟩
    · exact ⟨_, exec_eq _ s⟩

/-- Only the process step and SendByte can stop, on an index outside the two buffers (R50). -/
theorem exists_runEvent {s : State} (hrx : s.phase = .idle → s.rxIndex ≤ 256)
    (htx : s.phase = .send → s.txIdx < s.respLen → s.txIdx < 256) (e : Event) : ∃ t, runEvent e s = .next t := by
  cases e with
  | poll =>
    by_cases hdue : s.phase = .idle ∧ s.frameReady = true
    · obtain ⟨t, hproc⟩ := exists_process (hrx hdue.1)
      exact ⟨t, (poll_due hdue.1 hdue.2).trans hproc⟩
    · exact ⟨s, if_neg hdue⟩
  | sendByte =>
    by_cases hmore : s.phase = .send ∧ s.txIdx < s.respLen
    · exact ⟨_, sendByte_of_more hmore (htx hmore.1 hmore.2)⟩
    · exact ⟨s, sendByte_of_not_more hmore⟩
  | _ => exact ⟨_, rfl⟩

/-- The invariant bounds both indices. -/
theorem Inv.exists_runEvent {s : State} (h : Inv s) (e : Event) : ∃ t, runEvent e s = .next t := by
  have hlen := h.respBound
  exact Machine.exists_runEvent (fun _ => h.rxBound) (fun _ _ => by omega) e

/-- Settles O6: whatever event is next, scheduled or the main loop's own, has a next state. -/
theorem noStepStopsFromTheInvariant : Obligations.NoStepStopsFromTheInvariant := by
  intro s h
  cases hevents : s.events with
  | cons e rest =>
    rw [step_event h.legal hevents]
    exact (h.withEvents rest).exists_runEvent e
  | nil =>
    rw [step_idle h.legal hevents, runMain]
    split
    · exact h.exists_runEvent _
    · exact ⟨s, rfl⟩

end Sys2Proof.Machine

/-! Hidden bytes (R38): the cells of the two buffers that no rule reads have no influence on a step. -/

namespace Sys2Proof.Machine

/-- The state with other bytes in the two buffers. -/
def withBuffers (b r : Memory 8) (s : State) : State := { s with buf := b, resp := r }

theorem SameVisible.eq_withBuffers {s t : State} (h : SameVisible s t) : t = withBuffers t.buf t.resp s := h.fields

/-- The schedule is no hidden byte. -/
theorem SameVisible.withEvents {s t : State} (h : SameVisible s t) (evs : List Event) :
    SameVisible { s with events := evs } { t with events := evs } :=
  { h with fields := congrArg (fun u : State => { u with events := evs }) h.fields }

/-! ### the events that touch neither buffer -/

/-- The events whose step reads or writes a byte of the two buffers. -/
def touchesBuffers : Event → Bool
  | .rxByte _ => true
  | .poll => true
  | .sendByte => true
  | .reset => true
  | _ => false

/-- What the other events do commutes with a change of the bytes. -/
theorem runEvent_withBuffers {e : Event} {s s' : State} (he : touchesBuffers e = false)
    (h : runEvent e s = .next s') (b r : Memory 8) :
    runEvent e (withBuffers b r s) = .next (withBuffers b r s') := by
  cases e with
  | advance => cases h; rfl
  | rxByteWithTick c => cases h; rfl
  | tick => cases h; rw [tick, apply_ite (withBuffers b r)]; rfl
  | guardPre => cases h; rw [guardPre, apply_ite (withBuffers b r)]; rfl
  | sendDone => cases h; rw [sendDone, apply_ite (withBuffers b r)]; rfl
  | tc => cases h; rw [tc, apply_ite (withBuffers b r)]; rfl
  | tcTimeout => cases h; rw [tcTimeout, apply_ite (withBuffers b r)]; rfl
  | guardPost => cases h; rw [guardPost, apply_ite (withBuffers b r)]; rfl
  | clear => cases h; rw [clearStep, apply_ite (withBuffers b r)]; rfl
  | collabRead a => cases h; rw [collabRead, apply_ite (withBuffers b r)]; rfl
  | collabWrite a v =>
    cases h
    rw [collabWrite, apply_ite (withBuffers b r), apply_ite (withBuffers b r)]
    rfl
  | _ => cases he

/-- They write neither buffer and make no more of their cells visible. -/
theorem SameVisible.of_moves {s t s' : State} {e : Event} (h : SameVisible s t) (hmove : Moves s e s')
    (he : touchesBuffers e = false) : SameVisible s' (withBuffers t.buf t.resp s') := by
  cases hmove with
  | store | overflow | drop | silence | answer | sendByte | reset => cases he
  | guardPre hphase => exact { h with fields := rfl, resps := fun _ => h.resps (.inl hphase) }
  | sendDone => exact { h with fields := rfl, resps := by simp }
  | tc => exact { h with fields := rfl, resps := by simp }
  | tcTimeout => exact { h with fields := rfl, resps := by simp }
  | guardPost => exact { h with fields := rfl, resps := by simp }
  | clear => exact { h with fields := rfl, bufs := nofun, resps := by simp }
  | _ => exact { h with fields := rfl }

/-! ### an arriving byte -/

/-- A byte goes to the same cell in both states, which is visible from then on (R126). -/
theorem SameVisible.rxByte {s t : State} (h : SameVisible s t) (b : Byte) : SameVisible (rxByte b s) (rxByte b t) := by
  obtain ⟨hsbuf, htbuf, hresp⟩ := h.wfs
  rw [h.eq_withBuffers]
  cases hready : s.frameReady with
  | true =>
    rw [rxByte_of_ready hready, rxByte_of_ready (s := withBuffers t.buf t.resp s) hready]
    exact { h with fields := rfl }
  | false =>
    by_cases hroom : s.rxIndex < 256
    · rw [rxByte_of_room hready hroom, rxByte_of_room (s := withBuffers t.buf t.resp s) hready hroom]
      refine { h with
        fields := rfl
        bufs := fun a ha => ?_
        wfs := ⟨Memory.wf_write hsbuf _ _, Memory.wf_write htbuf _ _, hresp⟩ }
      change (t.buf.write s.rxIndex b).read a = (s.buf.write s.rxIndex b).read a
      rw [Memory.read_write htbuf, Memory.read_write hsbuf]
      split
      next => rfl
      next hother => exact h.bufs a (by change a < s.rxIndex + 1 at ha; omega)
    · rw [rxByte_of_full hready hroom, rxByte_of_full (s := withBuffers t.buf t.resp s) hready hroom]
      exact { h with fields := rfl }

/-! ### the process step -/

/-- The frame is visible (R18). -/
theorem SameVisible.frameBytes_eq {s t : State} (h : SameVisible s t) : frameBytes t = frameBytes s := by
  have hrx : t.rxIndex = s.rxIndex := by rw [h.fields]
  rw [frameBytes, frameBytes, hrx]
  exact Memory.readList_congr fun a _ ha => h.bufs a (by omega)

/-- Which way the process step goes depends on the frame and the slave's address alone. -/
theorem process_same_way {s t : State} (hrx : t.rxIndex = s.rxIndex) (haddr : t.slaveAddr = s.slaveAddr)
    (hframe : frameBytes t = frameBytes s) :
    (process s = .fault .frameBufferBounds)
      ∨ (process s = .next (dropFrame s) ∧ process t = .next (dropFrame t))
      ∨ ∃ i, process s = exec i s ∧ process t = exec i t := by
  unfold process
  rw [hrx, haddr, hframe]
  split
  · exact .inl rfl
  · split
    · exact .inr (.inl ⟨rfl, rfl⟩)
    · split
      · exact .inr (.inl ⟨rfl, rfl⟩)
      · exact .inr (.inr ⟨_, rfl, rfl⟩)

/-- A request reads no byte of the two buffers. -/
theorem requestBody_withBuffers (i : Instr) (b r : Memory 8) (s : State) :
    requestBody i (withBuffers b r s) = requestBody i s := by
  cases i <;> rfl

theorem requestEffect_withBuffers (i : Instr) (b r : Memory 8) (s : State) :
    requestEffect i (withBuffers b r s) = withBuffers b r (requestEffect i s) := by
  cases i with
  | wsr a reg v e =>
    rw [requestEffect, requestEffect, apply_ite (withBuffers b r), notifyHook_eq, notifyHook_eq]
    rfl
  | _ => rfl

/-- It builds the same response in both states. -/
theorem responded_withBuffers (i : Instr) (b r : Memory 8) (s : State) :
    responded i (withBuffers b r s)
      = withBuffers b (r.writeList 0 (withCrc (requestBody i s))) (responded i s) := by
  rw [responded, requestBody_withBuffers, requestEffect_withBuffers]
  rfl

/-- The response just built is visible, every cell of it. -/
theorem SameVisible.exec {s t s' : State} (h : SameVisible s t) {i : Instr} (hexec : exec i s = .next s') :
    ∃ t', Machine.exec i t = .next t' ∧ SameVisible s' t' := by
  obtain ⟨hsbuf, htbuf, hsresp, htresp⟩ := h.wfs
  have hwfs := And.intro hsbuf (And.intro htbuf (And.intro
    (Memory.wf_writeList hsresp 0 (withCrc (requestBody i s)))
    (Memory.wf_writeList htresp 0 (withCrc (requestBody i s)))))
  rw [h.eq_withBuffers]
  by_cases haddr : addressByte i = 0x00#8
  · rw [exec_of_broadcast haddr] at hexec ⊢
    cases hexec
    rw [responded_withBuffers]
    exact ⟨_, rfl, rfl, h.bufs, by simp, hwfs⟩
  · rw [exec_of_addressed haddr] at hexec ⊢
    cases hexec
    rw [responded_withBuffers]
    refine ⟨_, rfl, rfl, h.bufs, fun _ a ha => ?_, hwfs⟩
    have hcell : a < (withCrc (requestBody i s)).length := ha.trans_eq (length_withCrc_requestBody i s).symm
    change (t.resp.writeList 0 _).read a = (s.resp.writeList 0 _).read a
    rw [Memory.read_writeList htresp, Memory.read_writeList hsresp, if_pos (by omega), if_pos (by omega)]

theorem SameVisible.dropFrame {s t : State} (h : SameVisible s t) : SameVisible (dropFrame s) (dropFrame t) := by
  rw [h.eq_withBuffers]
  exact ⟨rfl, h.bufs, by simp [Machine.dropFrame], h.wfs⟩

theorem SameVisible.poll {s t s' : State} (h : SameVisible s t) (hpoll : poll s = .next s') :
    ∃ t', Machine.poll t = .next t' ∧ SameVisible s' t' := by
  have hphase : t.phase = s.phase := by rw [h.fields]
  have hready : t.frameReady = s.frameReady := by rw [h.fields]
  unfold Machine.poll at hpoll ⊢
  rw [hphase, hready]
  split at hpoll
  next hdue =>
    rw [if_pos hdue]
    obtain hfault | ⟨hs, ht⟩ | ⟨i, hs, ht⟩ :=
      process_same_way (s := s) (t := t) (by rw [h.fields]) (by rw [h.fields]) h.frameBytes_eq
    · rw [hfault] at hpoll
      cases hpoll
    · rw [hs] at hpoll
      cases hpoll
      exact ⟨_, ht, h.dropFrame⟩
    · rw [hs] at hpoll
      rw [ht]
      exact h.exec hpoll
  next hnot =>
    cases hpoll
    rw [if_neg hnot]
    exact ⟨t, rfl, h⟩

/-! ### a byte sent -/

/-- The byte to be sent is visible (R203). -/
theorem SameVisible.sendByte {s t s' : State} (h : SameVisible s t) (hsend : sendByte s = .next s') :
    ∃ t', Machine.sendByte t = .next t' ∧ SameVisible s' t' := by
  rw [h.eq_withBuffers]
  by_cases hmore : s.phase = .send ∧ s.txIdx < s.respLen
  · have hcell := sendByte_bound hsend hmore
    have hbyte : t.resp.read s.txIdx = s.resp.read s.txIdx := h.resps (.inr hmore.1) _ hmore.2
    rw [sendByte_of_more hmore hcell] at hsend
    cases hsend
    refine ⟨_, sendByte_of_more (s := withBuffers t.buf t.resp s) hmore hcell, { h with fields := ?_ }⟩
    simp [withBuffers, hbyte]
  · rw [sendByte_of_not_more hmore] at hsend
    cases hsend
    exact ⟨_, sendByte_of_not_more (s := withBuffers t.buf t.resp s) hmore, { h with fields := rfl }⟩

/-! ### every step -/

theorem SameVisible.reset {s t : State} (h : SameVisible s t) : SameVisible (resetStep s) (resetStep t) := by
  rw [h.eq_withBuffers]
  exact ⟨rfl, nofun, fun _ _ _ => rfl, rfl, rfl, rfl, rfl⟩

/-- An event does the same in both states. -/
theorem SameVisible.runEvent {s t s' : State} {e : Event} (h : SameVisible s t) (hrun : runEvent e s = .next s') :
    ∃ t', Machine.runEvent e t = .next t' ∧ SameVisible s' t' := by
  cases htouch : touchesBuffers e with
  | false =>
    refine ⟨_, ?_, h.of_moves (moves_of_runEvent hrun) htouch⟩
    rw [h.eq_withBuffers]
    exact runEvent_withBuffers htouch hrun _ _
  | true =>
    cases e with
    | rxByte b =>
      cases hrun
      exact ⟨_, rfl, h.rxByte b⟩
    | poll => exact h.poll hrun
    | sendByte => exact h.sendByte hrun
    | reset =>
      cases hrun
      exact ⟨_, rfl, h.reset⟩
    | _ => cases htouch

/-- Settles O10: the same event is next in both states, and does the same in both. -/
theorem hiddenBytesNeverReachAnOutput : Obligations.HiddenBytesNeverReachAnOutput := by
  intro s t s' h hstep
  have hlegal : s.cfg.legal = true := (step_cases hstep).1
  have hlegal' : t.cfg.legal = true := by rw [h.fields]; exact hlegal
  have hevents : t.events = s.events := by rw [h.fields]
  have hmain : mainEvent t = mainEvent s := by rw [h.fields]; rfl
  cases hcase : s.events with
  | cons e rest =>
    rw [step_event hlegal hcase] at hstep
    rw [step_event hlegal' (hevents.trans hcase)]
    exact (h.withEvents rest).runEvent hstep
  | nil =>
    rw [step_idle hlegal hcase, runMain] at hstep
    rw [step_idle hlegal' (hevents.trans hcase), runMain, hmain]
    cases hnext : mainEvent s with
    | some e =>
      rw [hnext] at hstep
      exact h.runEvent hstep
    | none =>
      rw [hnext] at hstep
      cases hstep
      exact ⟨t, rfl, h⟩

end Sys2Proof.Machine

/-! The whole state: reset and the builds, the collaborator port, who writes which element, what a step emits. -/

namespace Sys2Proof.Machine

/-! ### reset (R49, R260, R261) -/

/-- Settles O1: each element of the reset state is a literal of the build. -/
theorem resetLeavesTheTabulatedState : Obligations.ResetLeavesTheTabulatedState :=
  fun _ => ⟨Memory.read_nil, rfl, rfl, rfl, rfl, rfl, rfl, rfl, rfl, rfl, rfl, rfl⟩

/-- Settles O2: the step is `resetStep`, which says what each element becomes. -/
theorem resetReleasesTheLineAndForgets : Obligations.ResetReleasesTheLineAndForgets := by
  intro s rest hlegal hevents
  have htrace : (resetStep { s with events := rest }).trace = s.trace ++ (if s.de then [.de false] else []) := by
    simp only [resetStep]
    split
    · rfl
    · rw [List.append_nil]
  exact ⟨_, step_event hlegal hevents, Memory.read_nil, rfl, rfl, rfl, rfl, rfl, rfl, rfl, rfl, rfl, rfl, rfl, rfl, rfl,
    rfl, htrace⟩

/-! ### the builds (U5, U6) -/

theorem legal_iff (c : Config) : c.legal = true ↔
    1 ≤ c.regCount ∧ c.regCount ≤ 65536 ∧ 1 ≤ c.slaveAddr.toNat ∧ c.slaveAddr.toNat ≤ 247 ∧ c.tcTimeout ≠ some 0 := by
  unfold Config.legal
  cases c.tcTimeout with
  | none => simp [and_assoc]
  | some d => simp [and_assoc, Nat.pos_iff_ne_zero]

/-- No event is refused: every instruction has a meaning, and the bounds of the buffers are faults. -/
theorem runEvent_ne_refused (e : Event) (s : State) (r : Refusal) : runEvent e s ≠ .refused r := by
  cases e with
  | poll =>
    change poll s ≠ _
    unfold poll process
    split
    · split
      · simp
      · split
        · simp
        · split
          · simp
          · simp [exec_eq]
    · simp
  | sendByte =>
    change sendByte s ≠ _
    unfold sendByte
    split
    · split <;> simp
    · simp
  | _ => exact nofun

theorem runNext_ne_refused (s : State) (r : Refusal) : runNext s ≠ .refused r := by
  unfold runNext
  split
  · exact runEvent_ne_refused _ _ r
  · unfold runMain
    split
    · exact runEvent_ne_refused _ _ r
    · simp

/-- Settles O3: the legal builds are those of the ranges, and only the test of the build refuses a step. -/
theorem illegalBuildsAreRefused : Obligations.IllegalBuildsAreRefused := by
  refine ⟨legal_iff, fun s => ?_⟩
  unfold step
  cases s.cfg.legal with
  | false => simp
  | true => simpa using runNext_ne_refused s .illegalBuild

/-! ### the collaborator port (R24, R272) -/

theorem collabRead_of_idle {s : State} (hidle : s.phase = .idle) (a : Nat) : collabRead a s =
    { s with reply := some (if a < s.cfg.regCount then .value (s.x.read a) else .outOfRange) } := by
  rw [collabRead, if_pos hidle]
  simp [addressLegal]

theorem collabWrite_of_legal {s : State} (hidle : s.phase = .idle) {a : Nat} (ha : a < s.cfg.regCount) (v : Half) :
    collabWrite a v s = { s with x := s.x.write a v, reply := some .ok } := by
  have hlegal : addressLegal s.cfg a = true := decide_eq_true ha
  rw [collabWrite, if_pos hidle, if_pos hlegal]
  rfl

theorem collabWrite_of_illegal {s : State} (hidle : s.phase = .idle) {a : Nat} (ha : s.cfg.regCount ≤ a) (v : Half) :
    collabWrite a v s = { s with reply := some .outOfRange } := by
  have hillegal : ¬ addressLegal s.cfg a = true := by simpa [addressLegal] using ha
  rw [collabWrite, if_pos hidle, if_neg hillegal]

theorem collabWrite_of_busy {s : State} (hbusy : s.phase ≠ .idle) (a : Nat) (v : Half) :
    collabWrite a v s = { s with delayed := s.delayed ++ [.write a v] } := if_neg hbusy

/-- Settles O11: the step is the event's, by the phase and the bound of the address. -/
theorem collaboratorPortReadsAndWrites : Obligations.CollaboratorPortReadsAndWrites := by
  intro s a v rest hlegal hwf
  refine ⟨fun hevents hidle => ?_, fun hevents hidle ha => ?_, fun hevents hidle ha => ?_, fun hevents hbusy => ?_,
    fun hevents hbusy => ?_⟩
  · exact (step_event hlegal hevents).trans
      (congrArg Host.Outcome.next (collabRead_of_idle (s := { s with events := rest }) hidle a))
  · have hstep : step s = .next { s with events := rest, x := s.x.write a v, reply := some .ok } :=
      (step_event hlegal hevents).trans
        (congrArg Host.Outcome.next (collabWrite_of_legal (s := { s with events := rest }) hidle ha v))
    exact ⟨_, hstep, fun b => Memory.read_write hwf a b v, rfl⟩
  · exact (step_event hlegal hevents).trans
      (congrArg Host.Outcome.next (collabWrite_of_illegal (s := { s with events := rest }) hidle ha v))
  · exact (step_event hlegal hevents).trans (congrArg Host.Outcome.next (if_neg hbusy))
  · exact (step_event hlegal hevents).trans
      (congrArg Host.Outcome.next (collabWrite_of_busy (s := { s with events := rest }) hbusy a v))

/-! ### who writes which element (R239) -/

section

variable {s t : State} {e : Event}

theorem Moves.cfg (h : Moves s e t) : t.cfg = s.cfg := by cases h <;> rfl

theorem Moves.x (h : Moves s e t) : t.x = s.x ∨ e = .reset
    ∨ (e = .poll ∧ s.phase = .idle ∧ s.frameReady = true) ∨ ∃ a v, e = .collabWrite a v ∧ s.phase = .idle := by
  cases h with
  | silence i hidle hready | answer i hidle hready => exact .inr (.inr (.inl ⟨rfl, hidle, hready⟩))
  | write a v hidle => exact .inr (.inr (.inr ⟨a, v, rfl, hidle⟩))
  | reset => exact .inr (.inl rfl)
  | _ => exact .inl rfl

theorem Moves.buf (h : Moves s e t) : t.buf = s.buf ∨ e = .reset
    ∨ ∃ b, e = .rxByte b ∧ s.frameReady = false ∧ t.buf = s.buf.write s.rxIndex b := by
  cases h with
  | store b hready => exact .inr (.inr ⟨b, rfl, hready, rfl⟩)
  | reset => exact .inr (.inl rfl)
  | _ => exact .inl rfl

theorem Moves.lastRxTime (h : Moves s e t) : t.lastRxTime = s.lastRxTime ∨ e = .reset
    ∨ ∃ b, e = .rxByte b ∧ s.frameReady = false := by
  cases h with
  | store b hready | overflow b hready => exact .inr (.inr ⟨b, rfl, hready⟩)
  | reset => exact .inr (.inl rfl)
  | _ => exact .inl rfl

theorem Moves.rxIndex (h : Moves s e t) : t.rxIndex = s.rxIndex ∨ e = .reset ∨ (e = .clear ∧ s.phase = .done)
    ∨ ∃ b, e = .rxByte b ∧ s.frameReady = false := by
  cases h with
  | store b hready => exact .inr (.inr (.inr ⟨b, rfl, hready⟩))
  | clear hphase => exact .inr (.inr (.inl ⟨rfl, hphase⟩))
  | reset => exact .inr (.inl rfl)
  | _ => exact .inl rfl

/-- The ready flag with the guard of its rise (R28). -/
theorem Moves.frameReady (h : Moves s e t) : t.frameReady = s.frameReady
    ∨ (t.frameReady = false ∧ (e = .reset ∨ (e = .clear ∧ s.phase = .done)))
    ∨ (e = .tick ∧ s.frameReady = false ∧ t.frameReady = true ∧ 0 < s.rxIndex ∧ silenceReached s = true) := by
  cases h with
  | ready hready hbytes hsilent => exact .inr (.inr ⟨rfl, hready, rfl, hbytes, hsilent⟩)
  | clear hphase => exact .inr (.inl ⟨rfl, .inr ⟨rfl, hphase⟩⟩)
  | reset => exact .inr (.inl ⟨rfl, .inl rfl⟩)
  | _ => exact .inl rfl

theorem Moves.response (h : Moves s e t) : (t.resp = s.resp ∧ t.respLen = s.respLen) ∨ e = .poll ∨ e = .reset := by
  cases h with
  | drop | silence | answer => exact .inr (.inl rfl)
  | reset => exact .inr (.inr rfl)
  | _ => exact .inl ⟨rfl, rfl⟩

theorem Moves.txIdx (h : Moves s e t) : t.txIdx = s.txIdx ∨ e = .poll ∨ e = .sendByte ∨ e = .reset := by
  cases h with
  | answer => exact .inr (.inl rfl)
  | sendByte => exact .inr (.inr (.inl rfl))
  | reset => exact .inr (.inr (.inr rfl))
  | _ => exact .inl rfl

theorem Moves.de (h : Moves s e t) :
    t.de = s.de ∨ e = .guardPre ∨ e = .guardPost ∨ e = .tcTimeout ∨ e = .reset := by
  cases h with
  | guardPre => exact .inr (.inl rfl)
  | guardPost => exact .inr (.inr (.inl rfl))
  | tcTimeout => exact .inr (.inr (.inr (.inl rfl)))
  | reset => exact .inr (.inr (.inr (.inr rfl)))
  | _ => exact .inl rfl

theorem Moves.phase (h : Moves s e t) : t.phase = s.phase
    ∨ e ∈ [Event.poll, .guardPre, .sendDone, .tc, .tcTimeout, .guardPost, .clear, .reset] := by
  cases h with
  | drop | silence | answer | guardPre | sendDone | tc | tcTimeout | guardPost | clear | reset => exact .inr (by simp)
  | _ => exact .inl rfl

theorem Moves.txFault (h : Moves s e t) :
    t.txFault = s.txFault ∨ (e = .tcTimeout ∧ t.txFault = true) ∨ e = .reset := by
  cases h with
  | tcTimeout => exact .inr (.inl ⟨rfl, rfl⟩)
  | reset => exact .inr (.inr rfl)
  | _ => exact .inl rfl

theorem Moves.slaveAddr (h : Moves s e t) : t.slaveAddr = s.slaveAddr ∨ e = .reset := by
  cases h with
  | reset => exact .inr rfl
  | _ => exact .inl rfl

theorem Moves.now (h : Moves s e t) : t.now = s.now ∨ e = .advance ∨ e = .reset := by
  cases h with
  | advance => exact .inr (.inl rfl)
  | reset => exact .inr (.inr rfl)
  | _ => exact .inl rfl

end

/-- Settles O7: the elements one by one, each with the events that write it. -/
theorem eachElementHasItsWriters : Obligations.EachElementHasItsWriters := by
  intro s t hstep
  obtain ⟨e, evs, htakes, hmove⟩ | rfl := step_moves hstep
  · rw [htakes.nextEvent]
    refine ⟨hmove.cfg, ?_, ?_, ?_, ?_, ?_, ?_, ?_, ?_, ?_, ?_, ?_, ?_⟩
    · simpa using hmove.x
    · simpa using hmove.buf
    · simpa using hmove.lastRxTime
    · simpa using hmove.rxIndex
    · obtain hsame | ⟨-, rfl | ⟨rfl, hphase⟩⟩ | ⟨rfl, hready, hrise, -, -⟩ := hmove.frameReady
      · exact .inl hsame
      · exact .inr (.inl rfl)
      · exact .inr (.inr (.inl ⟨rfl, hphase⟩))
      · exact .inr (.inr (.inr ⟨rfl, hready, hrise⟩))
    · simpa using hmove.response
    · simpa using hmove.txIdx
    · simpa using hmove.de
    · simpa using hmove.phase
    · simpa using hmove.txFault
    · simpa using hmove.slaveAddr
    · simpa using hmove.now
  · exact ⟨rfl, .inl rfl, .inl rfl, .inl rfl, .inl rfl, .inl rfl, .inl ⟨rfl, rfl⟩, .inl rfl, .inl rfl, .inl rfl, .inl rfl,
      .inl rfl, .inl rfl⟩

/-! ### what a step emits (R47) -/

/-- A request emits its hook event or nothing (R186). -/
theorem requestEffect_trace (i : Instr) (s : State) : (requestEffect i s).trace = s.trace
    ∨ ∃ a v, (requestEffect i s).trace = s.trace ++ [.hook a v] ∧ s.cfg.hookPresent = true := by
  obtain heffect | ⟨r, v, -, heffect⟩ := requestEffect_cases i s
  · exact .inl (by rw [heffect])
  · rw [heffect]
    cases hhook : s.cfg.hookPresent with
    | false => exact .inl (by simp [hookTrace, hhook])
    | true => exact .inr ⟨r, v, by simp [hookTrace, hhook], rfl⟩

theorem Moves.trace {s t : State} {e : Event} (h : Moves s e t) : t.trace = s.trace
    ∨ (∃ b, t.trace = s.trace ++ [.tx b] ∧ e = .sendByte ∧ b = s.resp.read s.txIdx)
    ∨ (∃ a v, t.trace = s.trace ++ [.hook a v] ∧ e = .poll ∧ s.cfg.hookPresent = true)
    ∨ (t.trace = s.trace ++ [.de true] ∧ e = .guardPre)
    ∨ (t.trace = s.trace ++ [.de false] ∧ (e = .guardPost ∨ e = .tcTimeout ∨ e = .reset)) := by
  cases h with
  | silence i | answer i =>
    obtain hsame | ⟨a, v, htrace, hhook⟩ := requestEffect_trace i s
    · exact .inl hsame
    · exact .inr (.inr (.inl ⟨a, v, htrace, rfl, hhook⟩))
  | sendByte => exact .inr (.inl ⟨_, rfl, rfl, rfl⟩)
  | guardPre => exact .inr (.inr (.inr (.inl ⟨rfl, rfl⟩)))
  | guardPost => exact .inr (.inr (.inr (.inr ⟨rfl, .inl rfl⟩)))
  | tcTimeout => exact .inr (.inr (.inr (.inr ⟨rfl, .inr (.inl rfl)⟩)))
  | reset =>
    cases hde : s.de with
    | false => exact .inl (by simp [resetStep, hde])
    | true => exact .inr (.inr (.inr (.inr ⟨by simp [resetStep, hde], .inr (.inr rfl)⟩)))
  | _ => exact .inl rfl

/-- Settles O9: each case of a step extends the trace by one event or not at all. -/
theorem eachStepEmitsAtMostOneEvent : Obligations.EachStepEmitsAtMostOneEvent := by
  intro s t hstep
  obtain ⟨e, evs, htakes, hmove⟩ | rfl := step_moves hstep
  · rw [htakes.nextEvent]
    simpa using hmove.trace
  · exact .inl rfl

/-! ### the collaborator accesses to come (R272) -/

theorem accessOf_event (access : Access) : accessOf access.event = some access := by cases access <;> rfl

theorem filterMap_accessOf_event (accesses : List Access) :
    accesses.filterMap (accessOf ∘ Access.event) = accesses := by
  have hsome : accessOf ∘ Access.event = some := funext accessOf_event
  rw [hsome, List.filterMap_some]

/-- The main loop asks for no access. -/
theorem accessOf_mainEvent {s : State} {e : Event} (h : mainEvent s = some e) : accessOf e = none := by
  unfold mainEvent at h
  split at h
  case h_3 => split at h <;> cases h <;> rfl
  case h_4 => cases h
  all_goals
    cases h
    rfl

/-- The accesses to come, with the next event in front of the schedule it leaves. -/
theorem Takes.accessesToCome {s : State} {e : Event} {evs : List Event} (h : Takes s e evs) :
    accessesToCome s = s.delayed ++ ((accessOf e).toList ++ evs.filterMap accessOf) := by
  unfold Machine.accessesToCome
  obtain hhead | ⟨hnil, rfl, hmain⟩ := h
  · rw [hhead, List.filterMap_cons]
    cases accessOf e <;> rfl
  · rw [hnil, accessOf_mainEvent hmain]
    rfl

/-- An event passes the accesses on, or is the oldest of them, taken in P_IDLE. -/
theorem Moves.accesses {s t : State} {e : Event} (h : Moves s e t) (hnone : s.phase = .idle → s.delayed = []) :
    accessesToCome t = s.delayed ++ ((accessOf e).toList ++ s.events.filterMap accessOf)
    ∨ ∃ access, s.phase = .idle ∧ e = access.event
        ∧ s.delayed ++ ((accessOf e).toList ++ s.events.filterMap accessOf) = access :: accessesToCome t := by
  unfold accessesToCome
  cases h with
  | skip e hnoAccess => exact .inl (by simp [hnoAccess])
  | order b first hfirst => exact .inl (by obtain rfl | rfl := hfirst <;> rfl)
  | clear => exact .inl (by simp [filterMap_accessOf_event, accessOf])
  | reset => exact .inl (by simp [resetStep, State.resetFor, filterMap_accessOf_event, accessOf])
  | delay e access haccess hbusy => exact .inl (by simp [haccess])
  | read a reply hidle => exact .inr ⟨.read a, hidle, rfl, by simp [hnone hidle, accessOf]⟩
  | write a v hidle => exact .inr ⟨.write a v, hidle, rfl, by simp [hnone hidle, accessOf]⟩
  | outOfRange a v hidle => exact .inr ⟨.write a v, hidle, rfl, by simp [hnone hidle, accessOf]⟩
  | _ => exact .inl rfl

/-- Settles O57: the accesses to come are those of the next event and of the schedule it leaves, and each case of a step
passes them on or carries out the first. -/
theorem noCollaboratorAccessIsLost : Obligations.NoCollaboratorAccessIsLost := by
  intro s t hinv hstep
  obtain ⟨e, evs, htakes, hmove⟩ | rfl := step_moves hstep
  · rw [htakes.nextEvent, htakes.accessesToCome]
    obtain hsame | ⟨access, hidle, rfl, hfirst⟩ := hmove.accesses hinv.noneWaiting
    · exact .inl hsame
    · exact .inr ⟨access, hidle, rfl, hfirst⟩
  · exact .inl rfl

end Sys2Proof.Machine

/-! The frame receiver (R124 to R135): the clock, the bytes that are discarded, the ready flag, the receiver's states, and a
whole sequence of bytes. -/

namespace Sys2Proof.Machine

/-! ### single steps -/

/-- Settles O21: the step adds one modulo 2^32, in integers. -/
theorem advanceCountsOneMillisecond : Obligations.AdvanceCountsOneMillisecond := by
  intro s rest hlegal hevents
  have hnow : s.now + 1#32 = BitVec.ofNat 32 ((s.now.toNat + 1) % 2 ^ 32) :=
    BitVec.eq_of_toNat_eq (by simp [BitVec.toNat_add])
  rw [← hnow]
  exact step_event hlegal hevents

/-- Settles O23: a byte while a frame is ready, and a byte to a full buffer. -/
theorem aDiscardedByteChangesNoCell : Obligations.ADiscardedByteChangesNoCell := by
  intro s b rest hlegal hevents
  have hstep : step s = .next (rxByte b { s with events := rest }) := step_event hlegal hevents
  exact ⟨fun hready => hstep.trans (congrArg Host.Outcome.next (rxByte_of_ready (s := { s with events := rest }) hready b)),
    fun hready hfull => hstep.trans (congrArg Host.Outcome.next
      (rxByte_of_full (s := { s with events := rest }) hready (Nat.not_lt.mpr hfull.ge) b))⟩

/-- Settles O25: the step is the pair's, which is put in one of the two orders. -/
theorem byteAndTickInOneInstantAreOrdered : Obligations.ByteAndTickInOneInstantAreOrdered := by
  intro s b rest hlegal hevents
  obtain ⟨first, heq, horder⟩ := rxByteWithTick_eq b { s with events := rest }
  exact ⟨first, (step_event hlegal hevents).trans (congrArg Host.Outcome.next heq), horder⟩

/-! ### the ready flag and the states of the receiver (R28 to R30) -/

/-- Settles O27: the cases in which the flag changes, with their guards. -/
theorem theReadyFlagHasTwoTransitions : Obligations.TheReadyFlagHasTwoTransitions := by
  intro s t hstep hchanged
  obtain ⟨e, evs, htakes, hmove⟩ | rfl := step_moves hstep
  · rw [htakes.nextEvent]
    obtain hsame | ⟨hfall, hevent⟩ | ⟨rfl, -, hrise, hbytes, hsilent⟩ := hmove.frameReady
    · exact absurd hsame hchanged
    · refine .inr ⟨hfall, ?_⟩
      obtain rfl | ⟨rfl, hphase⟩ := hevent
      · exact .inr rfl
      · exact .inl ⟨rfl, hphase⟩
    · rw [silence_iff, decide_eq_true_eq] at hsilent
      exact .inl ⟨hrise, rfl, hbytes, hsilent⟩
  · exact absurd rfl hchanged

/-- Settles O28: no case but Clear and reset writes the buffer, the index or the timestamp while a frame is ready. -/
theorem aReadyFrameIsStable : Obligations.AReadyFrameIsStable := by
  intro s t hready hstep hnotReset hnotClear
  obtain ⟨e, evs, htakes, hmove⟩ | rfl := step_moves hstep
  · rw [htakes.nextEvent] at hnotReset hnotClear
    cases hmove with
    | store b hidle => exact absurd (hready.symm.trans hidle) (by decide)
    | overflow b hidle => exact absurd (hready.symm.trans hidle) (by decide)
    | ready => exact ⟨rfl, rfl, rfl, rfl⟩
    | clear hphase => exact absurd ⟨rfl, hphase⟩ hnotClear
    | reset => exact absurd rfl hnotReset
    | _ => exact ⟨rfl, rfl, rfl, hready⟩
  · exact ⟨rfl, rfl, rfl, hready⟩

theorem rxState_of_ready {s : State} (hready : s.frameReady = true) : rxState s = .ready := if_pos hready

theorem rxState_of_empty {s : State} (hready : s.frameReady = false) (hempty : s.rxIndex = 0) : rxState s = .idle := by
  rw [rxState, if_neg (by simp [hready]), if_pos hempty]

theorem rxState_of_bytes {s : State} (hready : s.frameReady = false) (hbytes : 0 < s.rxIndex) :
    rxState s = .accumulating := by
  rw [rxState, if_neg (by simp [hready]), if_neg hbytes.ne']

/-- A receiver that has stored a byte holds one. -/
theorem rxState_store {s : State} (hready : s.frameReady = false) (b : Byte) :
    rxState { s with buf := s.buf.write s.rxIndex b, rxIndex := s.rxIndex + 1, lastRxTime := s.now } = .accumulating :=
  rxState_of_bytes hready (Nat.succ_pos s.rxIndex)

/-- Settles O29: a byte leads from Idle to Accumulating or stays there, the tick to Ready, Clear and reset to Idle; by the
invariant a consumption has a ready frame. -/
theorem theReceiverStateMachine : Obligations.TheReceiverStateMachine := by
  intro s t hinv hstep
  obtain ⟨e, evs, htakes, hmove⟩ | rfl := step_moves hstep
  · rw [htakes.nextEvent]
    cases hmove with
    | store b hready hroom =>
      obtain hempty | hbytes := Nat.eq_zero_or_pos s.rxIndex
      · exact .inr (.inl ⟨rxState_of_empty hready hempty, rxState_store hready b, b, rfl⟩)
      · exact .inl ((rxState_store hready b).trans (rxState_of_bytes hready hbytes).symm)
    | ready hready hbytes =>
      exact .inr (.inr (.inl ⟨rxState_of_bytes hready hbytes, rxState_of_ready rfl, rfl⟩))
    | clear hphase =>
      have hready : s.frameReady = true := hinv.busyReady fun hidle => by
        rw [show s.phase = .done from hphase] at hidle
        cases hidle
      exact .inr (.inr (.inr (.inl ⟨rxState_of_ready hready, rxState_of_empty rfl rfl, rfl, hphase⟩)))
    | reset => exact .inr (.inr (.inr (.inr ⟨rxState_of_empty rfl rfl, rfl⟩)))
    | _ => exact .inl rfl
  · exact .inl rfl

/-! ### a sequence of bytes (R96, R126, R128) -/

/-- `s` after the bytes `bytes`, with no other event between them: those that find room are stored, from the write index
on; the last one gives the timestamp. -/
def received (bytes : List Byte) (s : State) : State :=
  { s with
    buf := s.buf.writeList s.rxIndex (bytes.take (256 - s.rxIndex))
    rxIndex := min (s.rxIndex + bytes.length) 256
    lastRxTime := if bytes = [] then s.lastRxTime else s.now }

theorem received_nil {s : State} (hbound : s.rxIndex ≤ 256) : received [] s = s := by
  simp [received, Memory.writeList, hbound]

/-- The first byte stored, then the others. -/
theorem received_rxByte {s : State} (hready : s.frameReady = false) (hbound : s.rxIndex ≤ 256) (b : Byte)
    (bytes : List Byte) : received bytes (rxByte b s) = received (b :: bytes) s := by
  by_cases hroom : s.rxIndex < 256
  · have hleft : 256 - s.rxIndex = 256 - (s.rxIndex + 1) + 1 := by omega
    have hcount : s.rxIndex + (bytes.length + 1) = s.rxIndex + 1 + bytes.length := by omega
    rw [rxByte_of_room hready hroom]
    simp [received, hleft, hcount, Memory.writeList]
  · have hfull : s.rxIndex = 256 := by omega
    rw [rxByte_of_full hready hroom]
    simp [received, hfull]

/-- An arriving byte leaves a receiver that takes bytes. -/
theorem rxByte_keeps_receiving {s : State} (hready : s.frameReady = false) (hbound : s.rxIndex ≤ 256) (b : Byte) :
    (rxByte b s).frameReady = false ∧ (rxByte b s).rxIndex ≤ 256 ∧ (rxByte b s).cfg = s.cfg := by
  by_cases hroom : s.rxIndex < 256
  · rw [rxByte_of_room hready hroom]
    exact ⟨hready, hroom, rfl⟩
  · rw [rxByte_of_full hready hroom]
    exact ⟨hready, hbound, rfl⟩

theorem rxByte_withEvents (b : Byte) (s : State) (evs : List Event) :
    rxByte b { s with events := evs } = { rxByte b s with events := evs } := by
  obtain hready | hready := s.frameReady.eq_false_or_eq_true
  · rw [rxByte_of_ready hready, rxByte_of_ready (s := { s with events := evs }) hready]
  · by_cases hroom : s.rxIndex < 256
    · rw [rxByte_of_room hready hroom, rxByte_of_room (s := { s with events := evs }) hready hroom]
    · rw [rxByte_of_full hready hroom, rxByte_of_full (s := { s with events := evs }) hready hroom]

/-- The bytes of a schedule, one after the other. -/
theorem runSteps_rxBytes {s : State} (hlegal : s.cfg.legal = true) (hready : s.frameReady = false)
    (hbound : s.rxIndex ≤ 256) (bytes : List Byte) (rest : List Event) :
    runSteps bytes.length { s with events := bytes.map .rxByte ++ rest }
      = .next { received bytes s with events := rest } := by
  induction bytes generalizing s with
  | nil =>
    rw [received_nil hbound]
    exact runSteps_zero _
  | cons b bytes ih =>
    obtain ⟨hready', hbound', hcfg⟩ := rxByte_keeps_receiving hready hbound b
    rw [← received_rxByte hready hbound]
    exact runSteps_event hlegal rfl (congrArg Host.Outcome.next (rxByte_withEvents b s _))
      (ih (by rw [hcfg]; exact hlegal) hready' hbound')

/-- Settles O30: from write index 0 the bytes that find room are the first 256, and no other cell is written. -/
theorem receivedBytesBecomeTheFrame : Obligations.ReceivedBytesBecomeTheFrame := by
  intro s bytes rest hlegal hwf hne hevents hready hempty
  have hrun := runSteps_rxBytes hlegal hready (by omega) bytes rest
  rw [← hevents] at hrun
  have hreceived : received bytes s = { s with
      buf := s.buf.writeList 0 (bytes.take 256), rxIndex := min bytes.length 256, lastRxTime := s.now } := by
    simp [received, hempty, hne]
  rw [hreceived] at hrun
  have hlength : min bytes.length 256 = (bytes.take 256).length := by rw [List.length_take, Nat.min_comm]
  refine ⟨_, hrun, ?_, fun a ha => ?_, rfl⟩
  · change (s.buf.writeList 0 (bytes.take 256)).readList 0 (min bytes.length 256) = _
    rw [hlength]
    exact Memory.readList_writeList hwf 0 _
  · change (s.buf.writeList 0 (bytes.take 256)).read a = _
    rw [Memory.read_writeList hwf, if_neg]
    rw [← hlength]
    omega

end Sys2Proof.Machine

/-! The function handlers (R170 to R189, R230): what every request leaves unchanged, the range of a read, the write with its
echo, and the exception codes. -/

namespace Sys2Proof.Machine

/-! ### every request (R159) -/

/-- A write to an existing register leaves its value in the store and its hook event on the trace. -/
theorem stored_of_exec_wsr {s t : State} {a : Byte} {reg value : Half} {e : List Byte}
    (hreg : reg.toNat < s.cfg.regCount) (h : exec (.wsr a reg value e) s = .next t) :
    t.x = s.x.write reg.toNat value ∧ t.trace = s.trace ++ hookTrace s.cfg reg value := by
  have hstate := requestEffect_of_exec h
  rw [requestEffect_wsr hreg] at hstate
  exact ⟨(congrArg State.x hstate).symm, (congrArg State.trace hstate).symm⟩

/-- A request that writes no existing register leaves the store and the trace. -/
theorem kept_of_exec_not_writes {i : Instr} {s t : State} (hnot : writesRegister s.cfg i = false)
    (h : exec i s = .next t) : t.x = s.x ∧ t.trace = s.trace := by
  have hstate := requestEffect_of_exec h
  rw [requestEffect_of_not_writes hnot] at hstate
  exact ⟨(congrArg State.x hstate).symm, (congrArg State.trace hstate).symm⟩

/-- What a request makes of the store and the trace. -/
theorem exec_effect {i : Instr} {s t : State} (h : exec i s = .next t) :
    (writesRegister s.cfg i = false → t.x = s.x ∧ t.trace = s.trace)
      ∧ ∀ a r v e, i = .wsr a r v e → r.toNat < s.cfg.regCount → t.trace = s.trace ++ hookTrace s.cfg r v
        ∧ (s.x.wf = true → ∀ k, t.x.read k = if k = r.toNat then v else s.x.read k) := by
  refine ⟨fun hnot => kept_of_exec_not_writes hnot h, ?_⟩
  rintro a r v e rfl hr
  obtain ⟨hstore, htrace⟩ := stored_of_exec_wsr hr h
  exact ⟨htrace, fun hx k => hstore ▸ Memory.read_write hx r.toNat k v⟩

/-- Settles O39: a request is its effect, its response and the end of the process step; the effect is nothing unless it
writes an existing register. -/
theorem everyRequestCompletesWithinItsFrame : Obligations.EveryRequestCompletesWithinItsFrame := by
  intro i s hwf
  by_cases haddr : addressByte i = 0x00#8
  · have hexec := exec_of_broadcast haddr s
    exact ⟨_, hexec, rfl, (if_pos haddr).symm, fun a ha => exec_resp_read_of_le hwf hexec ha, exec_effect hexec⟩
  · have hexec := exec_of_addressed haddr s
    exact ⟨_, hexec, rfl, (if_neg haddr).symm, fun a ha => exec_resp_read_of_le hwf hexec ha, exec_effect hexec⟩

/-! ### Read Holding Registers (R174) -/

/-- A legal quantity whose range runs past the store is ILLEGAL_ADDRESS, in exact integers (R173, R174). -/
theorem requestBody_rhr_of_past_store {s : State} {start qty : Half} (hlow : 1 ≤ qty.toNat) (hhigh : qty.toNat ≤ 125)
    (hpast : s.cfg.regCount < start.toNat + qty.toNat) (a : Byte) (e : List Byte) :
    requestBody (.rhr a start qty e) s = [s.slaveAddr, 0x83#8, 0x02#8] := by
  have hquantity : quantityLegal qty = true := (quantityLegal_iff qty).mpr ⟨hlow, hhigh⟩
  have hrange : ¬ rangeLegal s.cfg start qty = true := by simpa [rangeLegal] using hpast
  rw [requestBody, if_pos hquantity, if_neg hrange]

/-- Settles O45: a read writes no register, and its response is ILLEGAL_ADDRESS. -/
theorem aReadPastTheStoreIsRejected : Obligations.AReadPastTheStoreIsRejected := by
  intro s a start qty e hwf ha hlow hhigh hpast
  rw [← requestBody_rhr_of_past_store hlow hhigh hpast a e]
  exact exec_answers_of_not_writes hwf ha rfl

/-! ### Write Single Register (R184 to R186) -/

/-- The response to a write to an existing register is the request again, in integers (R185). -/
theorem requestBody_wsr_of_legal {s : State} {reg : Half} (h : reg.toNat < s.cfg.regCount) (a : Byte) (value : Half)
    (e : List Byte) : requestBody (.wsr a reg value e) s =
      [s.slaveAddr, 0x06#8, BitVec.ofNat 8 (reg.toNat / 256), BitVec.ofNat 8 (reg.toNat % 256),
        BitVec.ofNat 8 (value.toNat / 256), BitVec.ofNat 8 (value.toNat % 256)] := by
  have hlegal : addressLegal s.cfg reg.toNat = true := decide_eq_true h
  rw [requestBody, if_pos hlegal, beBytes, beBytes, hi8_eq, lo8_eq, hi8_eq, lo8_eq]
  rfl

/-- A request to this slave is answered on top of its effect on the store and the trace. -/
theorem answers_of_addressed {i : Instr} {s t : State} (hwf : s.resp.wf = true) (haddr : addressByte i ≠ 0x00#8)
    (h : exec i s = .next t) : Answers { s with x := t.x, trace := t.trace } t (withCrc (requestBody i s)) := by
  rw [← requestEffect_of_exec h]
  rw [exec_eq] at h
  cases h
  exact answers_finish (by simpa using hwf) haddr (requestBody i s)

/-- Settles O46: the effect writes the register and notifies the hook, and the echo is answered on top of it. -/
theorem aWriteStoresAndEchoes : Obligations.AWriteStoresAndEchoes := by
  intro s a reg value e hx hresp ha hreg
  obtain ⟨t, hexec⟩ : ∃ t, exec (.wsr a reg value e) s = .next t := ⟨_, exec_eq _ s⟩
  obtain ⟨hstore, htrace⟩ := stored_of_exec_wsr hreg hexec
  have hanswers := answers_of_addressed (i := .wsr a reg value e) hresp ha hexec
  rw [htrace, requestBody_wsr_of_legal hreg] at hanswers
  exact ⟨t, hexec, fun k => hstore ▸ Memory.read_write hx reg.toNat k value, hanswers⟩

/-! ### read after write (R62 (a)) -/

/-- Settles O48: a read of one register answers with what it holds, which is what the write left there. -/
theorem aReadSeesTheLastWrite : Obligations.AReadSeesTheLastWrite := by
  rintro s u a b reg value e e' hx hresp hb hreg ⟨t, hwrite, hkept, hcfg⟩
  have hvalue : u.x.read reg.toNat = value := by
    rw [hkept, (stored_of_exec_wsr hreg hwrite).1, Memory.read_write hx, if_pos rfl]
  obtain ⟨v, hread, hbytes, -, -⟩ := aReadAnswersTheRegisters u b reg 1#16 e' hresp hb (by decide) (by decide)
    (by rw [hcfg]; exact hreg)
  refine ⟨v, hread, hbytes.trans ?_⟩
  rw [show (1#16).toNat = 1 from rfl, List.range_one, List.flatMap_singleton, Nat.add_zero, hvalue]

/-! ### exception codes (R230) -/

/-- Only an exception has a body of three bytes, and its code is 0x01, 0x02 or 0x03. -/
theorem requestBody_code {i : Instr} {s : State} (h : (requestBody i s).length = 3) :
    (requestBody i s).getD 2 0 ∈ [0x01#8, 0x02#8, 0x03#8] := by
  cases i with
  | rhr a start qty e =>
    by_cases hquantity : quantityLegal qty = true
    · by_cases hrange : rangeLegal s.cfg start qty = true
      · have hlow := ((quantityLegal_iff qty).mp hquantity).1
        rw [requestBody, if_pos hquantity, if_pos hrange] at h
        simp only [List.length_cons, length_flatMap_beBytes, registerValues, Memory.length_readList] at h
        omega
      · rw [requestBody, if_pos hquantity, if_neg hrange]
        simp
    · rw [requestBody, if_neg hquantity]
      simp
  | wsr a reg v e =>
    rw [requestBody] at h ⊢
    split at h
    next hlegal => simp [beBytes] at h
    next hlegal => simp [hlegal]
  | _ => simp [requestBody]

/-- Settles O56: a response of five bytes is a body of three and its CRC, so its third byte is the code. -/
theorem slaveFailureIsNeverRaised : Obligations.SlaveFailureIsNeverRaised := by
  intro i s t hwf hexec hlen
  by_cases haddr : addressByte i = 0x00#8
  · rw [exec_of_broadcast haddr] at hexec
    cases hexec
    cases hlen
  · rw [exec_of_addressed haddr] at hexec
    cases hexec
    have hbody : (requestBody i s).length = 3 :=
      Nat.add_right_cancel ((length_requestBody i s).trans (hlen : responseLength s.cfg i = 5))
    have hread : (responded i s).resp.read 2 = (requestBody i s).getD 2 0 := by
      change (s.resp.writeList 0 (withCrc (requestBody i s))).read 2 = _
      rw [Memory.read_writeList hwf, if_pos (by rw [length_withCrc, hbody]; decide), withCrc,
        List.getD_append _ _ _ _ (by rw [hbody]; decide)]
      rfl
    have hcode := requestBody_code hbody
    rw [← hread] at hcode
    simpa using hcode

end Sys2Proof.Machine

/-! The frame processor (R145 to R160): accepted frames are executed, short register requests are dropped, how the process
step ends, and that it is the pseudocode of R158. -/

namespace Sys2Proof.Machine

/-! ### Clear (R156) -/

/-- Settles O42: the step is Clear's, which is taken in P_DONE only. -/
theorem clearEndsTheConsumption : Obligations.ClearEndsTheConsumption := by
  intro s rest hlegal hevents
  have hstep : step s = .next (clearStep { s with events := rest }) := step_event hlegal hevents
  exact ⟨fun hdone => hstep.trans (congrArg Host.Outcome.next (if_pos hdone)),
    fun hnot => hstep.trans (congrArg Host.Outcome.next (if_neg hnot))⟩

/-! ### accepted frames (R145 to R150) -/

/-- A frame of four bytes or more, addressed to this slave or to all, with its own CRC, passes the gates. -/
theorem gates_of_accepted {slave : Byte} {frame : List Byte} (hlen : 4 ≤ frame.length)
    (haddr : frame.getD 0 0 = slave ∨ frame.getD 0 0 = 0x00#8) (hcrc : trailerMatches frame = true) :
    gates slave frame = none := by
  have hforeign : ¬ (frame.getD 0 0 ≠ slave ∧ frame.getD 0 0 ≠ Config.broadcast) :=
    fun hboth => haddr.elim hboth.1 hboth.2
  rw [gates, if_neg (show ¬ frame.length < Config.minFrame from Nat.not_lt.mpr hlen), if_neg hforeign, hcrc]
  rfl

/-- The process step of a frame that passes the gates and decodes runs the instruction. -/
theorem process_eq_exec {s : State} {i : Instr} (hbound : s.rxIndex ≤ 256)
    (hgates : gates s.slaveAddr (frameBytes s) = none) (hdecode : decode (frameBytes s) = .ok i) :
    process s = exec i s := by
  rw [process_accept hbound ((gates_iff s).mp hgates), hdecode]

/-- Only frames of four bytes or more decode (R147). -/
theorem length_of_decode {frame : List Byte} {i : Instr} (h : decode frame = .ok i) : 4 ≤ frame.length := by
  obtain ⟨a, fc, p, lo, hi, rfl, -, -⟩ := decode_ok h
  simp

/-- Settles O32: the poll, scheduled or the main loop's own, is the process step, which runs the instruction. -/
theorem aStepRunsTheDecodedInstruction : Obligations.AStepRunsTheDecodedInstruction := by
  intro s rest i hlegal hidle hready hbound haddr hcrc hdecode
  have hlen := length_of_decode hdecode
  have hgates : gates s.slaveAddr (frameBytes s) = none := by
    refine gates_of_accepted hlen ?_ hcrc
    rwa [frame_getD s (by rw [frameBytes_length] at hlen; omega)]
  constructor
  · intro hevents
    have hdue : PollDue s rest := ⟨hlegal, hevents, hidle, hready, hbound⟩
    exact hdue.step_eq.trans (process_eq_exec (s := { s with events := rest }) hbound hgates hdecode)
  · intro hevents
    have hmain : mainEvent s = some .poll := by rw [mainEvent, hidle]
    rw [step_idle hlegal hevents, runMain, hmain]
    exact (poll_due hidle hready).trans (process_eq_exec hbound hgates hdecode)

/-- The encoding of a well-formed request for this slave or for all is executed. -/
theorem process_encode {s : State} {i : Instr} (hwf : WellFormed i = true) (hframe : frameBytes s = encode i)
    (haddr : addressByte i = s.slaveAddr ∨ addressByte i = 0x00#8) : process s = exec i s := by
  have hlen : 4 ≤ (encode i).length := by rw [length_encode]; omega
  have hbound : s.rxIndex ≤ 256 := by rw [← frameBytes_length, hframe]; exact (wellFormed_iff i).mp hwf
  refine process_eq_exec hbound ?_ (hframe ▸ decodingAnEncodedRequestGivesItBack i hwf)
  rw [hframe]
  exact gates_of_accepted hlen haddr (trailerMatches_trailer (encodeBody i))

/-- Settles O33: the poll is the process step of an encoding. -/
theorem anEncodedRequestIsExecuted : Obligations.AnEncodedRequestIsExecuted := by
  intro s rest i hdue hwf hframe haddr
  exact hdue.step_eq.trans (process_encode (s := { s with events := rest }) hwf hframe haddr)

/-! ### end to end (R3) -/

/-- Milliseconds pass. -/
theorem runSteps_advance {s : State} (hlegal : s.cfg.legal = true) (k : Nat) (rest : List Event) :
    runSteps k { s with events := List.replicate k .advance ++ rest }
      = .next { s with events := rest, now := s.now + BitVec.ofNat 32 k } := by
  induction k generalizing s with
  | zero =>
    rw [BitVec.add_zero]
    exact runSteps_zero _
  | succ k ih =>
    have hnow : s.now + 1#32 + BitVec.ofNat 32 k = s.now + BitVec.ofNat 32 (k + 1) := by
      rw [BitVec.add_assoc, Nat.add_comm k 1, BitVec.ofNat_add]
    rw [← hnow]
    exact runSteps_event hlegal rfl rfl (ih (s := advance s) hlegal)

/-- Five milliseconds after the last byte, a tick and a poll run the process step on the frame (R130, R145). -/
theorem runSteps_settle {s : State} (hlegal : s.cfg.legal = true) (hidle : s.phase = .idle)
    (hready : s.frameReady = false) (hbytes : 0 < s.rxIndex) (htime : s.lastRxTime = s.now) (rest : List Event)
    {u : State} (hprocess : process { s with events := rest, frameReady := true, now := s.now + 5#32 } = .next u) :
    runSteps 7 { s with events := List.replicate 5 .advance ++ [.tick, .poll] ++ rest } = .next u := by
  have hsilent : silenceReached { s with events := .poll :: rest, now := s.now + 5#32 } = true := by
    have helapsed : s.now + 5#32 - s.now = 5#32 := by
      rw [BitVec.add_comm, BitVec.add_sub_cancel]
    simp [silenceReached, elapsed, htime, helapsed]
  have htick : tick { s with events := .poll :: rest, now := s.now + 5#32 }
      = { s with events := .poll :: rest, frameReady := true, now := s.now + 5#32 } :=
    tick_of_silent hready hbytes hsilent
  rw [List.append_assoc]
  refine (runSteps_add (n := 5) (m := 2) (runSteps_advance hlegal 5 _)).trans ?_
  exact runSteps_event hlegal rfl (congrArg Host.Outcome.next htick) <|
    runSteps_event hlegal rfl
      ((poll_due (s := { s with events := rest, frameReady := true, now := s.now + 5#32 }) hidle rfl).trans hprocess)
      (runSteps_zero u)

/-- Settles O34: the bytes become the frame, and the poll after the silence executes it. -/
theorem aRequestIsReceivedAndExecuted : Obligations.ARequestIsReceivedAndExecuted := by
  intro s rest i hlegal hbuf hwf hidle hready hempty haddr hevents
  have hfits : min (encode i).length 256 = (encode i).length := Nat.min_eq_left ((wellFormed_iff i).mp hwf)
  have hlen : 0 < (encode i).length := by rw [length_encode]; omega
  rw [requestSchedule, List.append_assoc, List.append_assoc] at hevents
  obtain ⟨t, hrun, hframe, hothers, ht⟩ :=
    receivedBytesBecomeTheFrame s (encode i) _ hlegal hbuf (List.ne_nil_of_length_pos hlen) hevents hready hempty
  rw [hfits] at ht
  rw [List.take_of_length_le ((wellFormed_iff i).mp hwf)] at hframe
  have hbuffered : (t.buf.readList 0 (encode i).length) = encode i := by
    rw [ht] at hframe
    exact hframe
  have hprocess := process_encode (i := i) (s := { s with
    events := rest, buf := t.buf, rxIndex := (encode i).length, lastRxTime := s.now, frameReady := true
    now := s.now + 5#32 }) hwf hbuffered haddr
  refine ⟨{ s with
    events := rest, buf := t.buf, rxIndex := (encode i).length, lastRxTime := s.now, frameReady := true
    now := s.now + 5#32 }, ?_, hbuffered, fun a ha => hothers a (.inl ha), rfl⟩
  have hsettle := runSteps_settle (s := { s with
    buf := t.buf, rxIndex := (encode i).length, lastRxTime := s.now }) hlegal hidle hready hlen rfl rest
    (hprocess.trans (exec_eq i _))
  rw [exec_eq, runSteps_add hrun, ht]
  exact hsettle

/-! ### short register requests (D12) -/

/-- A register request that decodes has its eight bytes (R95). -/
theorem length_of_decode_register {frame : List Byte} {i : Instr} (h : decode frame = .ok i)
    (hfc : frame.getD 1 0 = 0x03#8 ∨ frame.getD 1 0 = 0x06#8) : 8 ≤ frame.length := by
  obtain ⟨a, fc, p, lo, hi, rfl, -, hbody⟩ := decode_ok h
  obtain ⟨-, rfl, rfl⟩ := decodeBody_eq_ok hbody
  have hpayload : 4 ≤ (payloadBytes i).length := by
    obtain h3 | h6 := hfc
    · obtain ⟨a, s, q, e, rfl⟩ := eq_rhr_of_functionByte h3
      simp [payloadBytes, beBytes]
    · obtain ⟨a, r, v, e, rfl⟩ := eq_wsr_of_functionByte h6
      simp [payloadBytes, beBytes]
  simp only [List.length_cons, List.length_append, List.length_nil]
  omega

/-- Settles O36: such a frame fails a gate or does not decode, and is dropped either way. -/
theorem shortRegisterRequestsAreDropped : Obligations.ShortRegisterRequestsAreDropped := by
  intro s rest hdue hshort hfc
  rw [hdue.step_eq]
  obtain ⟨-, -, -, -, hbound⟩ := hdue
  cases hgates : pseudoGates s with
  | false => exact process_drop (s := { s with events := rest }) hbound hgates
  | true =>
    have hlen : 4 ≤ s.rxIndex := ((pseudoGates_iff s).mp hgates).1
    rw [process_accept (s := { s with events := rest }) hbound hgates]
    cases hdecode : decode (frameBytes { s with events := rest }) with
    | error => rfl
    | ok i =>
      rw [← frame_getD s (by omega)] at hfc
      have hlong : 8 ≤ (frameBytes s).length := length_of_decode_register hdecode hfc
      rw [frameBytes_length] at hlong
      exact absurd hshort (Nat.not_lt.mpr hlong)

/-! ### the end of the process step (R155, D27) -/

theorem processEnded_exec {i : Instr} {s t : State} (h : exec i s = .next t) : ProcessEnded s t := by
  by_cases haddr : addressByte i = 0x00#8
  · rw [exec_of_broadcast haddr] at h
    cases h
    exact ⟨fun _ => ⟨rfl, rfl⟩, fun hne => absurd rfl hne⟩
  · rw [exec_of_addressed haddr] at h
    cases h
    refine ⟨fun hzero => ?_, fun _ => ⟨rfl, rfl⟩⟩
    have hlow := (responseLength_bounds s.cfg i).1
    have hzero' : responseLength s.cfg i = 0 := hzero
    omega

/-- Settles O37: a dropped frame and a broadcast leave no response, an answered request leaves five bytes or more. -/
theorem theProcessStepEndsInDoneOrGuardPre : Obligations.TheProcessStepEndsInDoneOrGuardPre := by
  refine ⟨fun s t h => ?_, fun i s t h => processEnded_exec h⟩
  obtain rfl | ⟨i, -, hexec⟩ := process_cases h
  · exact ⟨fun _ => ⟨rfl, rfl⟩, fun hne => absurd rfl hne⟩
  · exact processEnded_exec hexec

/-! ### the pseudocode (R158) -/

/-- Only a register request without its payload bytes passes gate 1 and does not decode (R95, D12). -/
theorem short_of_decode_error {frame : List Byte} {d : DecodeError} (hlow : 4 ≤ frame.length)
    (hhigh : frame.length ≤ 256) (h : decode frame = .error d) :
    (frame.getD 1 0 = 0x03#8 ∨ frame.getD 1 0 = 0x06#8) ∧ frame.length < 8 := by
  have hregister : frame.getD 1 0 = 0x03#8 ∨ frame.getD 1 0 = 0x06#8 := by
    obtain ⟨body, lo, hi, rfl⟩ := split_frame frame (by omega)
    match body, hlow with
    | a :: fc :: p, _ =>
      by_contra hnot
      have hnot' : fc ≠ 0x03#8 ∧ fc ≠ 0x06#8 := not_or.mp hnot
      have hfits : p.length + 4 ≤ 256 := by
        simp only [List.length_append, List.length_cons, List.length_nil] at hhigh
        omega
      have hok := (decode_frame a fc p lo hi hfits).trans (decodeBody_unsupported hnot' a p)
      cases h.symm.trans hok
  refine ⟨hregister, ?_⟩
  by_contra hlong
  obtain ⟨hrhr, hwsr, -⟩ := requestFieldsAreAssembledInWireOrder frame (Nat.not_lt.mp hlong) hhigh
  obtain h3 | h6 := hregister
  · obtain ⟨_, _, _, hok, -⟩ := hrhr h3
    cases h.symm.trans hok
  · obtain ⟨_, _, _, hok, -⟩ := hwsr h6
    cases h.symm.trans hok

/-- The bytes of the buffer that decodes are those of the instruction's frame up to the trailer. -/
theorem buf_of_decode {s : State} {i : Instr} (h : decode (frameBytes s) = .ok i) :
    s.rxIndex = (payloadBytes i).length + 4 ∧ s.buf.read 0 = addressByte i ∧ s.buf.read 1 = functionByte i
      ∧ ∀ k, k < (payloadBytes i).length → s.buf.read (k + 2) = (payloadBytes i).getD k 0 := by
  obtain ⟨a, fc, p, lo, hi, hframe, -, hbody⟩ := decode_ok h
  obtain ⟨rfl, rfl, rfl⟩ := decodeBody_eq_ok hbody
  have hlen : s.rxIndex = (payloadBytes i).length + 4 := by rw [← frameBytes_length, hframe]; simp
  refine ⟨hlen, ?_, ?_, fun k hk => ?_⟩
  · rw [← frame_getD s (by omega), hframe]
    rfl
  · rw [← frame_getD s (by omega), hframe]
    rfl
  · rw [← frame_getD s (by omega), hframe, List.getD_cons_succ, List.getD_cons_succ, List.getD_append _ _ _ _ hk]

/-- A register field as R158 reads it. -/
theorem memRead2_of_bytes {s : State} {off : Nat} {v : Half} (hhi : s.buf.read off = hi8 v)
    (hlo : s.buf.read (off + 1) = lo8 v) : memRead2 s off = v.toNat := by
  rw [memRead2, hhi, hlo, ← bigEndian_toNat, bigEndian_hi8_lo8]

theorem pseudoRespond_eq (body : List Byte) (s : State) : pseudoRespond body s = loadResponse body s := by
  rw [loadResponse, ← withCrc_eq]
  rfl

/-- A request without effect is its response alone. -/
theorem responded_of_not_writes {i : Instr} {s : State} (h : writesRegister s.cfg i = false) :
    responded i s = loadResponse (requestBody i s) s := by
  rw [← loadResponse_requestBody, requestEffect_of_not_writes h]

/-- The response length of before is overwritten. -/
theorem pseudoRespond_noResponse (body : List Byte) (s : State) :
    pseudoRespond body (noResponse s) = loadResponse body s := by
  rw [pseudoRespond_eq]
  rfl

/-- The branch of 0x03 in R158 is the read's handler. -/
theorem pseudoDispatch_rhr {s : State} {a : Byte} {start qty : Half} {e : List Byte}
    (h : decode (frameBytes s) = .ok (.rhr a start qty e)) :
    pseudoDispatch (noResponse s) = responded (.rhr a start qty e) s := by
  obtain ⟨hlen, -, hfc, hbytes⟩ := buf_of_decode h
  have hlong : 8 ≤ (noResponse s).rxIndex := by rw [noResponse_rxIndex, hlen]; simp [payloadBytes, beBytes]
  have hstart : memRead2 (noResponse s) 2 = start.toNat :=
    memRead2_of_bytes (hbytes 0 (by simp [payloadBytes, beBytes])) (hbytes 1 (by simp [payloadBytes, beBytes]))
  have hqty : memRead2 (noResponse s) 4 = qty.toNat :=
    memRead2_of_bytes (hbytes 2 (by simp [payloadBytes, beBytes])) (hbytes 3 (by simp [payloadBytes, beBytes]))
  have hfc' : (noResponse s).buf.read 1 = 0x03#8 := hfc
  rw [responded_of_not_writes rfl, pseudoDispatch, hfc', if_pos rfl, if_pos hlong, hstart, hqty]
  by_cases hquantity : qty.toNat = 0 ∨ 125 < qty.toNat
  · rw [if_pos hquantity, requestBody_rhr_of_illegal_quantity hquantity]
    exact pseudoRespond_noResponse _ s
  · rw [if_neg hquantity]
    by_cases hpast : s.cfg.regCount < start.toNat + qty.toNat
    · rw [if_pos (by exact hpast), requestBody_rhr_of_past_store (by omega) (by omega) hpast]
      exact pseudoRespond_noResponse _ s
    · rw [if_neg (by exact hpast), requestBody_rhr_of_legal (by omega) (by omega) (by omega)]
      exact pseudoRespond_noResponse _ s

/-- The branch of 0x06 in R158 is the write's handler. -/
theorem pseudoDispatch_wsr {s : State} {a : Byte} {reg value : Half} {e : List Byte}
    (h : decode (frameBytes s) = .ok (.wsr a reg value e)) :
    pseudoDispatch (noResponse s) = responded (.wsr a reg value e) s := by
  obtain ⟨hlen, -, hfc, hbytes⟩ := buf_of_decode h
  have hlong : 8 ≤ (noResponse s).rxIndex := by rw [noResponse_rxIndex, hlen]; simp [payloadBytes, beBytes]
  have hreg : memRead2 (noResponse s) 2 = reg.toNat :=
    memRead2_of_bytes (hbytes 0 (by simp [payloadBytes, beBytes])) (hbytes 1 (by simp [payloadBytes, beBytes]))
  have hvalue : memRead2 (noResponse s) 4 = value.toNat :=
    memRead2_of_bytes (hbytes 2 (by simp [payloadBytes, beBytes])) (hbytes 3 (by simp [payloadBytes, beBytes]))
  have hfc' : (noResponse s).buf.read 1 = 0x06#8 := hfc
  rw [pseudoDispatch, hfc', if_neg (by decide), if_pos rfl, if_pos hlong, hreg, hvalue]
  by_cases hpast : s.cfg.regCount ≤ reg.toNat
  · have hnot : writesRegister s.cfg (.wsr a reg value e) = false := decide_eq_false (Nat.not_lt.mpr hpast)
    rw [if_pos (by exact hpast), responded_of_not_writes hnot, requestBody_wsr_of_past_store hpast]
    exact pseudoRespond_noResponse _ s
  · rw [if_neg (by exact hpast), ← loadResponse_requestBody, requestBody_wsr_of_legal (by omega),
      requestEffect_wsr (by omega), pseudoWrite, pseudoRespond_eq, BitVec.ofNat_toNat, BitVec.ofNat_toNat]
    cases hhook : s.cfg.hookPresent <;> simp [hhook, hookTrace, loadResponse, noResponse]

/-- Every other function byte is an exception. -/
theorem requestBody_unsupported {i : Instr} (h3 : functionByte i ≠ 0x03#8) (h6 : functionByte i ≠ 0x06#8) (s : State) :
    requestBody i s = [s.slaveAddr, functionByte i ||| 0x80#8, 0x01#8] ∧ writesRegister s.cfg i = false := by
  cases i with
  | rhr => exact absurd rfl h3
  | wsr => exact absurd rfl h6
  | _ => exact ⟨rfl, rfl⟩

/-- The dispatch of R158 on a frame that decodes is the instruction's handler. -/
theorem pseudoDispatch_of_decode {s : State} {i : Instr} (h : decode (frameBytes s) = .ok i) :
    pseudoDispatch (noResponse s) = responded i s := by
  by_cases h3 : functionByte i = 0x03#8
  · obtain ⟨a, start, qty, e, rfl⟩ := eq_rhr_of_functionByte h3
    exact pseudoDispatch_rhr h
  · by_cases h6 : functionByte i = 0x06#8
    · obtain ⟨a, reg, value, e, rfl⟩ := eq_wsr_of_functionByte h6
      exact pseudoDispatch_wsr h
    · obtain ⟨hbody, hnot⟩ := requestBody_unsupported h3 h6 s
      have hfc : (noResponse s).buf.read 1 = functionByte i := (buf_of_decode h).2.2.1
      rw [pseudoDispatch, hfc, if_neg h3, if_neg h6, responded_of_not_writes hnot, hbody]
      exact pseudoRespond_noResponse _ s

/-- On a register request without its payload bytes it does nothing. -/
theorem pseudoDispatch_of_short {s : State} (hfc : s.buf.read 1 = 0x03#8 ∨ s.buf.read 1 = 0x06#8)
    (hshort : s.rxIndex < 8) : pseudoDispatch (noResponse s) = noResponse s := by
  have hnot : ¬ 8 ≤ (noResponse s).rxIndex := Nat.not_le.mpr hshort
  rw [pseudoDispatch, if_neg hnot, if_neg hnot]
  obtain h3 | h6 := hfc
  · exact if_pos h3
  · rw [if_neg (by rw [noResponse_buf, h6]; decide)]
    exact if_pos h6

/-- R158 as the model's own operations: what follows the dispatch is broadcast suppression and the end of the process
step. -/
theorem pseudoProcess_eq (s : State) : pseudoProcess s = endProcess (if pseudoGates s then
    suppressBroadcast ((pseudoDispatch (noResponse s)).buf.read 0) (pseudoDispatch (noResponse s))
      else noResponse s) := rfl

/-- With no response there is nothing to suppress. -/
theorem suppressBroadcast_noResponse (a : Byte) (s : State) : suppressBroadcast a (noResponse s) = noResponse s := by
  unfold suppressBroadcast
  split <;> rfl

/-- Settles O38: a frame that fails a gate is dropped in both; one that decodes is dispatched to its handler in both; one
that does not is a short register request, and dropped in both. -/
theorem theProcessStepIsItsPseudocode : Obligations.TheProcessStepIsItsPseudocode := by
  intro s hbound
  rw [pseudoProcess_eq]
  cases hgates : pseudoGates s with
  | false => exact process_drop hbound hgates
  | true =>
    rw [process_accept hbound hgates, if_pos rfl]
    cases hdecode : decode (frameBytes s) with
    | ok i =>
      obtain ⟨-, haddr, -, -⟩ := buf_of_decode hdecode
      rw [pseudoDispatch_of_decode hdecode, show (responded i s).buf.read 0 = addressByte i from haddr,
        ← loadResponse_requestBody]
      exact exec_eq i s
    | error d =>
      have hlen : 4 ≤ s.rxIndex := ((pseudoGates_iff s).mp hgates).1
      obtain ⟨hfc, hshort⟩ := short_of_decode_error ((frameBytes_length s).symm ▸ hlen)
        ((frameBytes_length s).symm ▸ hbound) hdecode
      rw [frameBytes_length] at hshort
      rw [frame_getD s (by omega)] at hfc
      rw [pseudoDispatch_of_short hfc hshort, suppressBroadcast_noResponse]
      rfl

end Sys2Proof.Machine

/-! The transmitter (R200 to R213, R272): its steps, the wait that never ends, a response on the wire, and a collaborator
write that comes while a response is sent. -/

namespace Sys2Proof.Machine

/-! ### single steps (R201 to R207) -/

/-- A byte to be sent lies in the response buffer when a response has at most 255 bytes (R31, R50). -/
theorem sendByte_of_bound {s : State} (hlen : s.respLen ≤ 255) :
    sendByte s = .next (if s.phase = .send ∧ s.txIdx < s.respLen then
      { s with trace := s.trace ++ [.tx (s.resp.read s.txIdx)], txIdx := s.txIdx + 1 } else s) := by
  split
  next hmore => exact sendByte_of_more hmore (by omega)
  next hnot => exact sendByte_of_not_more hnot

/-- Settles O50: each step is the event's, taken in its own phase. -/
theorem theTransmitterSendsByteByByte : Obligations.TheTransmitterSendsByteByByte := by
  intro s rest hlegal hlen
  exact ⟨fun hevents => step_event hlegal hevents,
    fun hevents => (step_event hlegal hevents).trans (sendByte_of_bound (s := { s with events := rest }) hlen),
    fun hevents => step_event hlegal hevents, fun hevents => step_event hlegal hevents⟩

/-- Settles O52: the step is the timeout's, taken in P_WAIT_TC where a timeout is configured. -/
theorem theTimeoutReleasesTheLine : Obligations.TheTimeoutReleasesTheLine := by
  intro s rest hlegal hevents
  have hstep : step s = .next (tcTimeout { s with events := rest }) := step_event hlegal hevents
  refine ⟨fun hphase htimeout => ?_, fun hnot => ?_⟩
  · exact hstep.trans (congrArg Host.Outcome.next (if_pos ⟨hphase, Option.isSome_iff_ne_none.mpr htimeout⟩))
  · refine hstep.trans (congrArg Host.Outcome.next (if_neg fun ⟨hphase, htimeout⟩ => ?_))
    exact hnot.elim (absurd hphase) fun hnone => by simp [hnone] at htimeout

/-! ### the wait without a timeout (R208) -/

/-- Nothing but the schedule, the delayed accesses, the clock and the order counter has changed. -/
def OnlyWaits (s t : State) : Prop :=
  t = { s with events := t.events, delayed := t.delayed, now := t.now, orderCount := t.orderCount }

theorem OnlyWaits.trans {s t u : State} (hst : OnlyWaits s t) (htu : OnlyWaits t u) : OnlyWaits s u := by
  rw [OnlyWaits] at *
  rw [htu, hst]

theorem OnlyWaits.fields {s t : State} (h : OnlyWaits s t) :
    t.cfg = s.cfg ∧ t.phase = s.phase ∧ t.frameReady = s.frameReady ∧ t.de = s.de := by
  rw [OnlyWaits] at h
  rw [h]
  exact ⟨rfl, rfl, rfl, rfl⟩

/-- No event but `Tc`, its timeout and reset does more there than pass the time, or brings one of the two about. -/
theorem Moves.onlyWaits {s t : State} {e : Event} (h : Moves s e t) (htimeout : s.cfg.tcTimeout = none)
    (hphase : s.phase = .waitTc) (hready : s.frameReady = true) (he : e ≠ .tc ∧ e ≠ .reset)
    (hevents : ∀ e ∈ s.events, e ≠ .tc ∧ e ≠ .reset) :
    OnlyWaits s t ∧ ∀ e ∈ t.events, e ≠ .tc ∧ e ≠ .reset := by
  cases h with
  | skip | advance | delay => exact ⟨rfl, hevents⟩
  | order b first hfirst =>
    refine ⟨rfl, ?_⟩
    obtain rfl | rfl := hfirst <;> simpa using hevents
  | store b hidle => exact absurd (hready.symm.trans hidle) (by decide)
  | overflow b hidle => exact absurd (hready.symm.trans hidle) (by decide)
  | ready hidle => exact absurd (hready.symm.trans hidle) (by decide)
  | tc => exact absurd rfl he.1
  | reset => exact absurd rfl he.2
  | tcTimeout hwait hsome => simp [htimeout] at hsome
  | drop hidle | silence i hidle | answer i hidle | read a reply hidle | write a v hidle | outOfRange a v hidle =>
    exact absurd (hphase.symm.trans hidle) (by decide)
  | guardPre hother | sendByte hother | sendDone hother | guardPost hother | clear hother =>
    exact absurd (hphase.symm.trans hother) (by decide)

/-- One step of the wait. -/
theorem step_waits {s : State} (hlegal : s.cfg.legal = true) (htimeout : s.cfg.tcTimeout = none)
    (hphase : s.phase = .waitTc) (hready : s.frameReady = true) (hevents : ∀ e ∈ s.events, e ≠ .tc ∧ e ≠ .reset) :
    ∃ t, step s = .next t ∧ OnlyWaits s t ∧ accessesToCome t = accessesToCome s
      ∧ ∀ e ∈ t.events, e ≠ .tc ∧ e ≠ .reset := by
  cases hcase : s.events with
  | nil =>
    have hmain : mainEvent s = none := by rw [mainEvent, hphase]
    refine ⟨s, ?_, rfl, rfl, hevents⟩
    rw [step_idle hlegal hcase, runMain, hmain]
  | cons e rest =>
    rw [hcase, List.forall_mem_cons] at hevents
    obtain ⟨t, hrun⟩ := exists_runEvent (s := { s with events := rest })
      (fun hidle => absurd (hphase.symm.trans hidle) (by decide))
      (fun hsend => absurd (hphase.symm.trans hsend) (by decide)) e
    have hmove := moves_of_runEvent hrun
    obtain ⟨hwaits, htail⟩ := hmove.onlyWaits htimeout hphase hready hevents.1 hevents.2
    refine ⟨t, (step_event hlegal hcase).trans hrun, hwaits, ?_, htail⟩
    rw [Takes.accessesToCome (.inl hcase)]
    obtain hsame | ⟨-, hidle, -⟩ := hmove.accesses fun hidle => absurd (hphase.symm.trans hidle) (by decide)
    · exact hsame
    · exact absurd (hphase.symm.trans hidle) (by decide)

/-- Settles O53: each step only waits, and leaves a schedule that brings neither `Tc` nor reset about. -/
theorem withoutTransmissionCompleteTheBlockIsStuck : Obligations.WithoutTransmissionCompleteTheBlockIsStuck := by
  intro n
  induction n with
  | zero => exact fun s _ _ _ _ _ _ => ⟨s, runSteps_zero s, rfl, rfl⟩
  | succ n ih =>
    intro s hlegal htimeout hphase hready hde hevents
    obtain ⟨t, hstep, hwaits, haccesses, htail⟩ := step_waits hlegal htimeout hphase hready hevents
    obtain ⟨hcfg, hphase', hready', hde'⟩ := hwaits.fields
    obtain ⟨u, hrun, hwaits', haccesses'⟩ := ih t (hcfg ▸ hlegal) (hcfg ▸ htimeout) (hphase'.trans hphase)
      (hready'.trans hready) (hde'.trans hde) htail
    exact ⟨u, (runSteps_succ hstep).trans hrun, hwaits.trans hwaits', haccesses'.trans haccesses⟩

/-! ### a response on the wire (R210) -/

/-- `k` bytes of the response, one after the other (R203). -/
theorem runSteps_sendBytes {s : State} {k : Nat} (hlegal : s.cfg.legal = true) (hphase : s.phase = .send)
    (hleft : s.txIdx + k ≤ s.respLen) (hlen : s.respLen ≤ 255) (rest : List Event) :
    runSteps k { s with events := List.replicate k .sendByte ++ rest } = .next { s with
      events := rest, txIdx := s.txIdx + k, trace := s.trace ++ (s.resp.readList s.txIdx k).map .tx } := by
  induction k generalizing s with
  | zero =>
    rw [Memory.readList, List.map_nil, List.append_nil]
    exact runSteps_zero _
  | succ k ih =>
    have hsent := sendByte_of_more (s := { s with events := List.replicate k .sendByte ++ rest })
      ⟨hphase, (by omega : s.txIdx < s.respLen)⟩ (by omega : s.txIdx < 256)
    have hrest := ih (s := { s with trace := s.trace ++ [.tx (s.resp.read s.txIdx)], txIdx := s.txIdx + 1 }) hlegal hphase
      (by omega : s.txIdx + 1 + k ≤ s.respLen) hlen
    have htrace : s.trace ++ (s.resp.readList s.txIdx (k + 1)).map .tx
        = s.trace ++ [.tx (s.resp.read s.txIdx)] ++ (s.resp.readList (s.txIdx + 1) k).map .tx := by
      rw [Memory.readList, List.map_cons, List.append_assoc]
      rfl
    have hcount : s.txIdx + (k + 1) = s.txIdx + 1 + k := by omega
    rw [htrace, hcount]
    exact runSteps_event hlegal rfl hsent hrest

/-- From the guard interval to the wait for transmission complete (R201, R203, R204). -/
theorem runSteps_send {s : State} (hlegal : s.cfg.legal = true) (hphase : s.phase = .guardPre) (hstart : s.txIdx = 0)
    (hlen : s.respLen ≤ 255) (rest : List Event) :
    runSteps (s.respLen + 2) { s with
        events := .guardPre :: (List.replicate s.respLen .sendByte ++ .sendDone :: rest) }
      = .next { s with
        events := rest, de := true, txIdx := s.respLen, phase := .waitTc
        trace := s.trace ++ .de true :: (respBytes s).map .tx } := by
  have hguard : guardPre { s with events := List.replicate s.respLen .sendByte ++ .sendDone :: rest } = { s with
      events := List.replicate s.respLen .sendByte ++ .sendDone :: rest
      de := true, trace := s.trace ++ [.de true], phase := .send } := if_pos hphase
  have hbytes := runSteps_sendBytes (s := { s with de := true, trace := s.trace ++ [.de true], phase := .send })
    hlegal rfl (by rw [hstart, Nat.zero_add]) hlen (.sendDone :: rest)
  have htrace : s.trace ++ .de true :: (respBytes s).map .tx
      = s.trace ++ [.de true] ++ (s.resp.readList s.txIdx s.respLen).map .tx := by
    rw [hstart, List.append_assoc]
    rfl
  have hall : s.txIdx + s.respLen = s.respLen := by rw [hstart, Nat.zero_add]
  rw [htrace]
  refine runSteps_event hlegal rfl (congrArg Host.Outcome.next hguard) ((runSteps_add hbytes).trans ?_)
  rw [hall]
  exact runSteps_event hlegal rfl (congrArg Host.Outcome.next (if_pos ⟨rfl, rfl⟩)) (runSteps_zero _)

/-- What the sending schedules put on the trace, from the state of the wait. -/
theorem append_sentTrace (trace : List Output) (bytes : List Byte) :
    trace ++ sentTrace bytes = trace ++ .de true :: bytes.map .tx ++ [.de false] := by
  rw [sentTrace, List.append_assoc]
  rfl

/-- Settles O54: the response is sent up to the wait, and `Tc`, GuardPost and Clear end the consumption. -/
theorem anAnsweredFrameOnTheWire : Obligations.AnAnsweredFrameOnTheWire := by
  intro s rest hlegal hphase hstart hlen hevents
  have hsend := runSteps_send hlegal hphase hstart hlen ([.tc, .guardPost, .clear] ++ rest)
  have hschedule : s.events = .guardPre :: (List.replicate s.respLen .sendByte
      ++ .sendDone :: ([.tc, .guardPost, .clear] ++ rest)) := by
    rw [hevents, sendingSchedule]
    simp
  rw [← hschedule] at hsend
  rw [append_sentTrace]
  refine (runSteps_add (n := s.respLen + 2) (m := 3) hsend).trans ?_
  exact runSteps_event hlegal rfl (congrArg Host.Outcome.next (if_pos rfl)) <|
    runSteps_event hlegal rfl (congrArg Host.Outcome.next (if_pos rfl)) <|
    runSteps_event hlegal rfl (congrArg Host.Outcome.next (if_pos rfl)) (runSteps_zero _)

/-- Settles O55: the response is sent up to the wait, and the timeout and Clear end the consumption. -/
theorem aTimedOutFrameOnTheWire : Obligations.ATimedOutFrameOnTheWire := by
  intro s rest hlegal htimeout hphase hstart hlen hevents
  have hsend := runSteps_send hlegal hphase hstart hlen ([.tcTimeout, .clear] ++ rest)
  have hschedule : s.events = .guardPre :: (List.replicate s.respLen .sendByte
      ++ .sendDone :: ([.tcTimeout, .clear] ++ rest)) := by
    rw [hevents, timeoutSchedule]
    simp
  rw [← hschedule] at hsend
  rw [append_sentTrace]
  refine (runSteps_add (n := s.respLen + 2) (m := 2) hsend).trans ?_
  exact runSteps_event hlegal rfl
    (congrArg Host.Outcome.next (if_pos ⟨rfl, Option.isSome_iff_ne_none.mpr htimeout⟩)) <|
    runSteps_event hlegal rfl (congrArg Host.Outcome.next (if_pos rfl)) (runSteps_zero _)

/-! ### a collaborator write while a response is sent (R272) -/

/-- The steps of the sending of a response before Clear. -/
def transmits : Event → Bool
  | .guardPre => true
  | .sendByte => true
  | .sendDone => true
  | .tc => true
  | .guardPost => true
  | _ => false

theorem transmits_of_mem_sendingSchedule {n : Nat} {e : Event} (h : e ∈ (sendingSchedule n).dropLast) :
    transmits e = true := by
  have hschedule : sendingSchedule n
      = .guardPre :: (List.replicate n .sendByte ++ [.sendDone, .tc, .guardPost]) ++ [.clear] := by
    simp [sendingSchedule]
  rw [hschedule, List.dropLast_concat] at h
  simp only [List.mem_cons, List.mem_append, List.mem_replicate, List.not_mem_nil, or_false] at h
  obtain rfl | ⟨-, rfl⟩ | rfl | rfl | rfl := h <;> rfl

/-- The state with another schedule and other accesses delayed. -/
def withQueues (evs : List Event) (delayed : List Access) (s : State) : State :=
  { s with events := evs, delayed := delayed }

/-- What the transmitter's steps do commutes with a change of the schedule and of the delayed accesses. -/
theorem runEvent_withQueues {e : Event} {s t : State} (he : transmits e = true) (h : runEvent e s = .next t)
    (evs : List Event) (delayed : List Access) :
    runEvent e (withQueues evs delayed s) = .next (withQueues evs delayed t) := by
  cases e with
  | guardPre => cases h; rw [guardPre, apply_ite (withQueues evs delayed)]; rfl
  | sendDone => cases h; rw [sendDone, apply_ite (withQueues evs delayed)]; rfl
  | tc => cases h; rw [tc, apply_ite (withQueues evs delayed)]; rfl
  | guardPost => cases h; rw [guardPost, apply_ite (withQueues evs delayed)]; rfl
  | sendByte =>
    change sendByte s = .next t at h
    by_cases hmore : s.phase = .send ∧ s.txIdx < s.respLen
    · have hcell := sendByte_bound h hmore
      rw [sendByte_of_more hmore hcell] at h
      cases h
      exact sendByte_of_more (s := withQueues evs delayed s) hmore hcell
    · rw [sendByte_of_not_more hmore] at h
      cases h
      exact sendByte_of_not_more (s := withQueues evs delayed s) hmore
  | _ => cases he

/-- They have a next state, and stay out of P_IDLE. -/
theorem exists_transmit {e : Event} {s : State} (he : transmits e = true) (hlen : s.respLen ≤ 255)
    (hbusy : s.phase ≠ .idle) :
    ∃ t, runEvent e s = .next t ∧ t.cfg = s.cfg ∧ t.respLen = s.respLen ∧ t.phase ≠ .idle := by
  obtain ⟨t, hrun⟩ := exists_runEvent (fun hidle => absurd hidle hbusy) (fun _ hmore => by omega) e
  refine ⟨t, hrun, (moves_of_runEvent hrun).cfg, ?_⟩
  cases moves_of_runEvent hrun with
  | guardPre | sendDone | tc | guardPost => exact ⟨rfl, by simp⟩
  | skip | sendByte | delay => exact ⟨rfl, hbusy⟩
  | _ => cases he

/-- A write that comes at any point of those steps is delayed, and changes nothing of what they do. -/
theorem runSteps_delayed_write {s : State} {p : List Event} (hp : ∀ e ∈ p, transmits e = true)
    (hlegal : s.cfg.legal = true) (hlen : s.respLen ≤ 255) (hbusy : s.phase ≠ .idle) (a : Nat) (v : Half)
    (evs : List Event) (delayed : List Access) (m : Nat) :
    runSteps (p.length + (m + 1)) (withQueues (p ++ .collabWrite a v :: evs) delayed s)
      = runSteps (p.length + m) (withQueues (p ++ evs) (delayed ++ [.write a v]) s) := by
  induction p generalizing s with
  | nil =>
    rw [List.length_nil, Nat.zero_add, Nat.zero_add]
    exact runSteps_event hlegal rfl
      (congrArg Host.Outcome.next (collabWrite_of_busy (s := withQueues evs delayed s) hbusy a v)) rfl
  | cons e p ih =>
    rw [List.forall_mem_cons] at hp
    obtain ⟨t, hrun, hcfg, hlen', hbusy'⟩ := exists_transmit hp.1 hlen hbusy
    rw [List.length_cons, Nat.add_right_comm p.length 1 (m + 1), Nat.add_right_comm p.length 1 m]
    calc runSteps (p.length + (m + 1) + 1) (withQueues (e :: (p ++ .collabWrite a v :: evs)) delayed s)
        = runSteps (p.length + (m + 1)) (withQueues (p ++ .collabWrite a v :: evs) delayed t) :=
          runSteps_event hlegal rfl (runEvent_withQueues hp.1 hrun _ _) rfl
      _ = runSteps (p.length + m) (withQueues (p ++ evs) (delayed ++ [.write a v]) t) :=
          ih hp.2 (hcfg ▸ hlegal) (hlen' ▸ hlen) hbusy'
      _ = runSteps (p.length + m + 1) (withQueues (e :: (p ++ evs)) (delayed ++ [.write a v]) s) :=
          (runSteps_event (s := withQueues (e :: (p ++ evs)) (delayed ++ [.write a v]) s) hlegal rfl
            (runEvent_withQueues hp.1 hrun _ _) rfl).symm

/-- `s` when its response has been sent and Clear has ended the consumption. -/
def afterSending (s : State) : State :=
  { s with
    delayed := [], txIdx := s.respLen, rxIndex := 0, frameReady := false, phase := .idle, de := false
    trace := s.trace ++ sentTrace (respBytes s) }

/-- Settles O58: the write is delayed, the response is sent as without it, and Clear makes the write the next step. -/
theorem aDelayedWriteFollowsTheResponse : Obligations.ADelayedWriteFollowsTheResponse := by
  intro s p q rest a v hlegal hwf hphase hstart hlen hdelayed ha hschedule hq hevents
  have hp : ∀ e ∈ p, transmits e = true := fun e he =>
    transmits_of_mem_sendingSchedule (n := s.respLen)
      (by rw [← hschedule, List.dropLast_append_of_ne_nil hq]; exact List.mem_append_left _ he)
  have hbusy : s.phase ≠ .idle := by simp [hphase]
  have hlength : p.length + q.length = s.respLen + 5 := by
    rw [← List.length_append, hschedule]
    simp [sendingSchedule]
  have hwrite := runSteps_delayed_write hp hlegal hlen hbusy a v (q ++ rest) [] (q.length + 1)
  have hs : withQueues (p ++ .collabWrite a v :: (q ++ rest)) [] s = s := by
    rw [← hdelayed, ← List.cons_append, ← List.append_assoc, ← hevents]
    rfl
  have hsent : runSteps (s.respLen + 5) (withQueues (p ++ (q ++ rest)) [.write a v] s)
      = .next { afterSending s with events := .collabWrite a v :: rest } :=
    anAnsweredFrameOnTheWire (withQueues (p ++ (q ++ rest)) [.write a v] s) rest hlegal hphase hstart hlen
      (by rw [← List.append_assoc, hschedule]; rfl)
  have hlast := collabWrite_of_legal (s := { afterSending s with events := rest }) rfl ha v
  rw [hs, show p.length + (q.length + 1 + 1) = s.respLen + 7 by omega,
    show p.length + (q.length + 1) = s.respLen + 5 + 1 by omega] at hwrite
  refine ⟨{ s with
    x := s.x.write a v, events := rest, txIdx := s.respLen, rxIndex := 0, frameReady := false, phase := .idle, de := false
    trace := s.trace ++ sentTrace (respBytes s), reply := some .ok }, ?_, fun b => Memory.read_write hwf a b v, rfl⟩
  rw [hwrite, hdelayed]
  exact (runSteps_add hsent).trans
    (runSteps_event hlegal rfl (congrArg Host.Outcome.next hlast) (runSteps_zero _))

end Sys2Proof.Machine
